-- ==== Sys2Proof/Word.lean ====
section
/-! DEFINITION. The word types of Torkel and a place in the load-store domain. -/

namespace Sys2Proof

/-- A scalar register or system register (R98, R208). -/
abbrev Word := BitVec 64
/-- One byte of any memory. -/
abbrev Byte := BitVec 8
/-- A vector register or a tile mask (R144, R74). -/
abbrev Wide := BitVec 1024
/-- A lane mask (R250). -/
abbrev Mask := BitVec 256
/-- The six sticky flags NV, DZ, OF, UF, NX, SA in bits 0 to 5 (R104). -/
abbrev Flags := BitVec 6

/-- A core of the domain: package, die of the package, core of the die (R11, R15). -/
structure Loc where
  pkg : Nat
  die : Nat
  core : Nat
  deriving DecidableEq, Repr, Inhabited

end Sys2Proof
end

