-- ==== Sys2Proof/Config.lean ====
section
/-! DEFINITION. What the manual leaves open: free values without a body, and the few constants one device fixes. -/

namespace Sys2Proof.Config

/-- An undefined value of the manual (R3): the pattern delivered for draw number `draw` and use `tag`. Log entry 3. -/
opaque free (draw tag : Nat) : Nat

/-- The byte layout of a signed record body, which the manual does not give (R26). Log entry 11. -/
opaque recordBody (fields : List Nat) : List (BitVec 8)

/-- The private identity key that a die's mask ROM derives from its PUF and its helper data (R31); never readable. Log entry 11. -/
opaque identityKey (pkg die : Nat) (helper : List (BitVec 8)) : Nat

/-- The version number carried by a firmware image, whose layout the manual does not give (R32). Log entry 11. -/
opaque imageVersion (image : List (BitVec 8)) : BitVec 64

/-- The SHA-384 hash of the Vrelex root key held in mask ROM (R26). Log entry 11. -/
opaque rootKeyHash : Nat

/-- The capacity in bytes of the CXL device of a port (R187). Log entry 11. -/
opaque cxlCapacity (pkg die port : Nat) : Nat

/-- A bank has a spare row left for the row at an address, beside the rows replaced before: the manual gives neither banks nor how
many spares each holds (R411). Log entry 3. -/
opaque hasSpare (pkg die row : Nat) (replaced : List Nat) : Bool

/-- A firmware image as a signed object, whose byte layout the manual does not give (R26): its length from its first 64 bytes, its key,
its signed body, and the two integers of its signature. Log entry 11. -/
opaque imageLength (head : List (BitVec 8)) : Nat
opaque imageKey (bytes : List (BitVec 8)) : List (BitVec 8)
opaque imageBody (bytes : List (BitVec 8)) : List (BitVec 8)
opaque imageSig (bytes : List (BitVec 8)) : Nat × Nat

/-- The byte that memory nothing has written reads as (R25 leaves it undefined). Log entry 2. -/
def unwritten : BitVec 8 := 0

end Sys2Proof.Config
end

