-- ==== Sys2Proof/Syntax.lean ====
section
/-! DEFINITION. The instructions and events of Torkel: one constructor per row of opcode_table.json (R206 to R218, and 95_what_each_step_holds). -/

namespace Sys2Proof

/-- The stop bit and the iteration qualifier that every slot carries (R206). -/
structure Hd where
  stop : Bool
  q : BitVec 2
  deriving DecidableEq, Repr, Inhabited

/-- A vector slot's stop bit, qualifier, cluster (false is V0) and width code (R212). -/
structure VHd where
  stop : Bool
  q : BitVec 2
  cl : Bool
  w : BitVec 2
  deriving DecidableEq, Repr, Inhabited

/-- A packet of the fabric: the header fields of R174 and the payload bytes. `own` marks an access whose home is on the
issuing die, which enters no ring (R182); `fwd` counts its REDIRECTs (R378) and `id` names, for the source alone, the request it answers.
`part` is 0 for a whole access, 1 and 2 for its halves below and above a 64-byte line (R155), 3 for the flag of a STORELAST alone; `via` is the
translation that gave DEST: page-table root, number of the 64 KiB page, leaf entry; `born` is the cycle of its source core at which it was sent (R386). -/
structure Packet where
  typ : Nat
  size : Nat
  dest : Nat
  spkg : Nat
  sstn : Nat
  agent : Nat
  sctx : Nat
  tag : Nat
  aux : Nat
  seq : Nat
  enc : Bool
  ichk : Bool
  faddr : Nat
  fval : Nat
  rc : Bool
  own : Bool
  fwd : Nat
  id : Nat
  part : Nat
  via : Nat × Nat × Nat
  born : Nat
  data : List Byte
  deriving DecidableEq, Repr, Inhabited

/-- One instruction of a slot, or one event of the device. -/
inductive Instr where
  | launch (w : Word)
  | suspend (w : Word)
  | resume (w : Word)
  | tlbinv (w : Word)
  | retireCore (w : Word)
  | coreRetired (c : Nat)
  | restoreCore (w : Word)
  | drainDie (w : Word)
  | undrainDie (w : Word)
  | bypassDie (w : Word)
  | updateFirmware (w : Word)
  | dump (w : Word)
  | clearForeignDumpSlot (w : Word)
  | fatalDump (cause : Nat)
  | deviceRegisterWrite (off : Nat) (w : Word)
  | hostRead (bar off size : Nat)
  | hostWrite (bar off : Nat) (data : List Byte)
  | hostCompletion (k : Nat)
  | loadreq (pk : Packet) (full : Bool)
  | loadresp (pk : Packet)
  | store (pk : Packet) (full : Bool)
  | storelast (pk : Packet) (full : Bool)
  | atomic (pk : Packet) (full : Bool)
  | atomicEngineApply (e : Nat)
  | atomresp (pk : Packet)
  | collPacket (pk : Packet) (full : Bool)
  | redirect (pk : Packet)
  | nack (pk : Packet)
  | ack (pk : Packet)
  | undefinedPacket (pk : Packet)
  | retryBackoffExpiry (agent tp td : Nat)
  | requestTimeout (agent tp td : Nat)
  | cxlPortDown (port : Nat)
  | cxlPortUp (port : Nat)
  | powerLimitReport (num den : Nat)
  | pageWalkComplete (root va : Nat)
  | pageMove (pn new kind : Nat)
  | spareRowRepair (row : Nat)
  | regionFaultNotify (blk : Nat)
  | preload (blk : Nat)
  | contextRestore (blk : Nat)
  | regionComplete (blk : Nat)
  | gangBarrierComplete (blk : Nat)
  | cpycSlotFill (num : Nat)
  | cbsetTakesEffect (num : Nat)
  | copyComplete (num : Nat)
  | gatherEntryWhole (num : Nat)
  | collEngineStart (num : Nat)
  | cipherBlockReady (g : Nat)
  | nop (h : Hd)
  | add (h : Hd) (g : BitVec 2) (d : BitVec 6) (a : BitVec 6) (b : BitVec 6)
  | sub (h : Hd) (g : BitVec 2) (d : BitVec 6) (a : BitVec 6) (b : BitVec 6)
  | mul (h : Hd) (g : BitVec 2) (d : BitVec 6) (a : BitVec 6) (b : BitVec 6)
  | mulh (h : Hd) (g : BitVec 2) (d : BitVec 6) (a : BitVec 6) (b : BitVec 6)
  | mulhu (h : Hd) (g : BitVec 2) (d : BitVec 6) (a : BitVec 6) (b : BitVec 6)
  | divs (h : Hd) (g : BitVec 2) (d : BitVec 6) (a : BitVec 6) (b : BitVec 6)
  | divu (h : Hd) (g : BitVec 2) (d : BitVec 6) (a : BitVec 6) (b : BitVec 6)
  | rems (h : Hd) (g : BitVec 2) (d : BitVec 6) (a : BitVec 6) (b : BitVec 6)
  | remu (h : Hd) (g : BitVec 2) (d : BitVec 6) (a : BitVec 6) (b : BitVec 6)
  | and (h : Hd) (g : BitVec 2) (d : BitVec 6) (a : BitVec 6) (b : BitVec 6)
  | or (h : Hd) (g : BitVec 2) (d : BitVec 6) (a : BitVec 6) (b : BitVec 6)
  | xor (h : Hd) (g : BitVec 2) (d : BitVec 6) (a : BitVec 6) (b : BitVec 6)
  | andn (h : Hd) (g : BitVec 2) (d : BitVec 6) (a : BitVec 6) (b : BitVec 6)
  | shl (h : Hd) (g : BitVec 2) (d : BitVec 6) (a : BitVec 6) (b : BitVec 6)
  | shr (h : Hd) (g : BitVec 2) (d : BitVec 6) (a : BitVec 6) (b : BitVec 6)
  | sar (h : Hd) (g : BitVec 2) (d : BitVec 6) (a : BitVec 6) (b : BitVec 6)
  | rot (h : Hd) (g : BitVec 2) (d : BitVec 6) (a : BitVec 6) (b : BitVec 6)
  | min (h : Hd) (g : BitVec 2) (d : BitVec 6) (a : BitVec 6) (b : BitVec 6)
  | max (h : Hd) (g : BitVec 2) (d : BitVec 6) (a : BitVec 6) (b : BitVec 6)
  | minu (h : Hd) (g : BitVec 2) (d : BitVec 6) (a : BitVec 6) (b : BitVec 6)
  | maxu (h : Hd) (g : BitVec 2) (d : BitVec 6) (a : BitVec 6) (b : BitVec 6)
  | clz (h : Hd) (g : BitVec 2) (d : BitVec 6) (a : BitVec 6)
  | popc (h : Hd) (g : BitVec 2) (d : BitVec 6) (a : BitVec 6)
  | sext (h : Hd) (g : BitVec 2) (d : BitVec 6) (a : BitVec 6) (n : BitVec 6)
  | zext (h : Hd) (g : BitVec 2) (d : BitVec 6) (a : BitVec 6) (n : BitVec 6)
  | sel (h : Hd) (p : BitVec 2) (d : BitVec 6) (a : BitVec 6) (b : BitVec 6)
  | cmp (h : Hd) (g : BitVec 2) (k : BitVec 3) (c : BitVec 3) (a : BitVec 6) (b : BitVec 6)
  | plog (h : Hd) (g : BitVec 2) (k : BitVec 3) (o : BitVec 3) (x : BitVec 3) (y : BitVec 3)
  | addi (h : Hd) (g : BitVec 2) (d : BitVec 6) (i : BitVec 12)
  | li (h : Hd) (g : BitVec 2) (d : BitVec 6) (i : BitVec 12)
  | lih (h : Hd) (g : BitVec 2) (d : BitVec 6) (i : BitVec 12)
  | fadd (h : Hd) (p : BitVec 1) (d : BitVec 6) (a : BitVec 6) (b : BitVec 6)
  | fmul (h : Hd) (p : BitVec 1) (d : BitVec 6) (a : BitVec 6) (b : BitVec 6)
  | ffma (h : Hd) (p : BitVec 1) (d : BitVec 6) (a : BitVec 6) (b : BitVec 6)
  | fcvt (h : Hd) (d : BitVec 6) (a : BitVec 6) (c : BitVec 3)
  | fcmp (h : Hd) (p : BitVec 1) (k : BitVec 3) (c : BitVec 3) (a : BitVec 6) (b : BitVec 6)
  | br (h : Hd) (n : BitVec 1) (p : BitVec 3) (e : BitVec 1) (d : BitVec 15)
  | brk (h : Hd) (n : BitVec 1) (c : BitVec 1) (k : BitVec 3) (d : BitVec 15)
  | call (h : Hd) (n : BitVec 1) (p : BitVec 3) (e : BitVec 1) (d : BitVec 15)
  | ret (h : Hd) (n : BitVec 1) (p : BitVec 3) (e : BitVec 1)
  | seg (h : Hd) (n : BitVec 1) (p : BitVec 3) (e : BitVec 1) (k : BitVec 2) (r : BitVec 6)
  | lpset (h : Hd) (l : BitVec 3) (a : BitVec 6) (b : BitVec 6)
  | lpstrd (h : Hd) (l : BitVec 3) (k : BitVec 2) (a : BitVec 6) (b : BitVec 6)
  | lpmod (h : Hd) (i : BitVec 4) (t : BitVec 4)
  | lpmask (h : Hd) (m : BitVec 3)
  | lpgo (h : Hd) (d : BitVec 3)
  | lpbrk (h : Hd) (n : BitVec 1) (p : BitVec 3) (e : BitVec 1) (d : BitVec 15)
  | lpidx (h : Hd) (g : BitVec 2) (d : BitVec 6) (l : BitVec 3)
  | ckpt (h : Hd)
  | yield (h : Hd)
  | taskend (h : Hd)
  | vmov (h : VHd) (d : BitVec 6) (a : BitVec 6)
  | vadd (h : VHd) (d : BitVec 6) (a : BitVec 6) (b : BitVec 6)
  | vsub (h : VHd) (d : BitVec 6) (a : BitVec 6) (b : BitVec 6)
  | vmul (h : VHd) (d : BitVec 6) (a : BitVec 6) (b : BitVec 6)
  | vfma (h : VHd) (d : BitVec 6) (a : BitVec 6) (b : BitVec 6)
  | vfms (h : VHd) (d : BitVec 6) (a : BitVec 6) (b : BitVec 6)
  | vmin (h : VHd) (d : BitVec 6) (a : BitVec 6) (b : BitVec 6)
  | vmax (h : VHd) (d : BitVec 6) (a : BitVec 6) (b : BitVec 6)
  | vabs (h : VHd) (d : BitVec 6) (a : BitVec 6)
  | vneg (h : VHd) (d : BitVec 6) (a : BitVec 6)
  | vand (h : VHd) (d : BitVec 6) (a : BitVec 6) (b : BitVec 6)
  | vor (h : VHd) (d : BitVec 6) (a : BitVec 6) (b : BitVec 6)
  | vxor (h : VHd) (d : BitVec 6) (a : BitVec 6) (b : BitVec 6)
  | vandn (h : VHd) (d : BitVec 6) (a : BitVec 6) (b : BitVec 6)
  | vshl (h : VHd) (d : BitVec 6) (a : BitVec 6) (b : BitVec 6)
  | vshr (h : VHd) (d : BitVec 6) (a : BitVec 6) (b : BitVec 6)
  | vsar (h : VHd) (d : BitVec 6) (a : BitVec 6) (b : BitVec 6)
  | vcmpeq (h : VHd) (k : BitVec 3) (a : BitVec 6) (b : BitVec 6)
  | vcmplt (h : VHd) (k : BitVec 3) (a : BitVec 6) (b : BitVec 6)
  | vcmple (h : VHd) (k : BitVec 3) (a : BitVec 6) (b : BitVec 6)
  | vcmpltu (h : VHd) (k : BitVec 3) (a : BitVec 6) (b : BitVec 6)
  | vcmpleu (h : VHd) (k : BitVec 3) (a : BitVec 6) (b : BitVec 6)
  | vcvt (h : VHd) (d : BitVec 6) (a : BitVec 6) (f : BitVec 4)
  | vqdx (h : VHd) (d : BitVec 6) (a : BitVec 6) (f : BitVec 4)
  | vpermb (h : VHd) (d : BitVec 6) (a : BitVec 6) (b : BitVec 6)
  | vshuf (h : VHd) (d : BitVec 6) (a : BitVec 6) (b : BitVec 6)
  | vbcast (h : VHd) (d : BitVec 6) (a : BitVec 6) (l : BitVec 6)
  | vexts (h : VHd) (d : BitVec 6) (a : BitVec 6) (l : BitVec 6)
  | vins (h : VHd) (d : BitVec 6) (l : BitVec 6) (b : BitVec 6)
  | viota (h : VHd) (d : BitVec 6)
  | vrsum (h : VHd) (d : BitVec 6) (a : BitVec 6) (k : BitVec 3)
  | vrmin (h : VHd) (d : BitVec 6) (a : BitVec 6) (k : BitVec 3)
  | vrmax (h : VHd) (d : BitVec 6) (a : BitVec 6) (k : BitVec 3)
  | vscan (h : VHd) (d : BitVec 6) (a : BitVec 6) (o : BitVec 2) (k : BitVec 3)
  | vexp2 (h : VHd) (d : BitVec 6) (a : BitVec 6)
  | vlog2 (h : VHd) (d : BitVec 6) (a : BitVec 6)
  | vrcp (h : VHd) (d : BitVec 6) (a : BitVec 6)
  | vrsq (h : VHd) (d : BitVec 6) (a : BitVec 6)
  | vsqrt (h : VHd) (d : BitVec 6) (a : BitVec 6)
  | vld (h : VHd) (d : BitVec 6) (a : BitVec 6) (z : BitVec 3) (f : BitVec 3)
  | vst (h : VHd) (d : BitVec 6) (a : BitVec 6) (z : BitVec 3) (f : BitVec 3)
  | vlda (h : VHd) (d : BitVec 6) (a : BitVec 6) (f : BitVec 3)
  | vsta (h : VHd) (d : BitVec 6) (a : BitVec 6) (f : BitVec 3)
  | vldc (h : VHd) (d : BitVec 6) (u : BitVec 4) (l : BitVec 4) (x : BitVec 2)
  | vstc (h : VHd) (d : BitVec 6) (u : BitVec 4) (l : BitVec 4) (x : BitVec 2)
  | vcopy (h : VHd) (d : BitVec 6) (a : BitVec 6)
  | vany (h : VHd) (p : BitVec 3) (k : BitVec 3)
  | vall (h : VHd) (p : BitVec 3) (k : BitVec 3)
  | vkop (h : VHd) (o : BitVec 3) (m : BitVec 3) (x : BitVec 3) (y : BitVec 3)
  | vkpop (h : VHd) (d : BitVec 6) (k : BitVec 3)
  | vunpk (h : VHd) (d : BitVec 6) (a : BitVec 6) (t : BitVec 2) (f : BitVec 4)
  | vpack (h : VHd) (d : BitVec 6) (a : BitVec 6) (t : BitVec 2) (f : BitVec 4)
  | vmulh (h : VHd) (d : BitVec 6) (a : BitVec 6) (b : BitVec 6)
  | vpopc (h : VHd) (d : BitVec 6) (a : BitVec 6)
  | vsel (h : VHd) (m : BitVec 3) (d : BitVec 6) (a : BitVec 6) (b : BitVec 6)
  | mclr (h : Hd)
  | mpush (h : Hd) (a : BitVec 4) (b : BitVec 4) (m : BitVec 3) (l : BitVec 3) (k : BitVec 3) (e : BitVec 2)
  | mpushz (h : Hd) (a : BitVec 4) (b : BitVec 4) (m : BitVec 3) (l : BitVec 3) (k : BitVec 3) (e : BitVec 2)
  | mshift (h : Hd) (a : BitVec 6) (t : BitVec 2)
  | mdrain (h : Hd) (a : BitVec 6)
  | mscout (h : Hd) (d : BitVec 3) (i : BitVec 3)
  | mcell (h : Hd) (a : BitVec 6)
  | mcfg (h : Hd) (a : BitVec 6)
  | mthr (h : Hd) (a : BitVec 6)
  | tmop (h : Hd) (d : BitVec 3) (a : BitVec 3) (b : BitVec 3) (o : BitVec 3)
  | mrel (h : Hd)
  | lds (h : Hd) (n : BitVec 2) (d : BitVec 6) (a : BitVec 6) (f : BitVec 6)
  | sts (h : Hd) (n : BitVec 2) (d : BitVec 6) (a : BitVec 6) (f : BitVec 6)
  | ldg (h : Hd) (n : BitVec 3) (a : BitVec 6)
  | ldga (h : Hd) (n : BitVec 3) (a : BitVec 6)
  | lpop (h : Hd) (f : BitVec 2) (d : BitVec 6)
  | stg (h : Hd) (n : BitVec 3) (c : BitVec 1) (a : BitVec 6) (d : BitVec 6)
  | stgr (h : Hd) (n : BitVec 3) (c : BitVec 1) (p : BitVec 3) (a : BitVec 6) (d : BitVec 6)
  | gpush (h : Hd) (c : BitVec 1) (a : BitVec 6) (x : BitVec 6)
  | gpop (h : Hd) (c : BitVec 1) (d : BitVec 6)
  | scat (h : Hd) (c : BitVec 1) (d : BitVec 6) (a : BitVec 6) (x : BitVec 6)
  | qdrop (h : Hd) (u : BitVec 1) (n : BitVec 7)
  | qcnt (h : Hd) (u : BitVec 1) (d : BitVec 6)
  | tlook (h : Hd) (d : BitVec 6) (a : BitVec 6)
  | tset (h : Hd) (w : BitVec 3) (a : BitVec 6) (b : BitVec 6)
  | tclr (h : Hd) (w : BitVec 3) (a : BitVec 6)
  | fwr (h : Hd) (p : BitVec 1) (k : BitVec 1) (r : BitVec 6) (c : BitVec 1)
  | frd (h : Hd) (p : BitVec 1) (k : BitVec 1) (r : BitVec 6) (c : BitVec 1)
  | fcnt (h : Hd) (p : BitVec 1) (d : BitVec 6)
  | cpy (h : Hd) (a : BitVec 6)
  | cpyt (h : Hd) (a : BitVec 6)
  | cpym (h : Hd) (m : BitVec 3) (a : BitVec 6)
  | cpyc (h : Hd) (b : BitVec 4) (a : BitVec 6)
  | cbset (h : Hd) (b : BitVec 4) (a : BitVec 6)
  | cbadvR (h : Hd) (b : BitVec 4) (n : BitVec 9)
  | cbadvW (h : Hd) (b : BitVec 4) (n : BitVec 9)
  | cbwait (h : Hd) (b : BitVec 4) (n : BitVec 9)
  | tlrd (h : Hd) (c : BitVec 3) (o : BitVec 1) (x : BitVec 2) (d : BitVec 6)
  | tlwait (h : Hd) (c : BitVec 3) (o : BitVec 1) (x : BitVec 2) (i : BitVec 1) (n : BitVec 6)
  | tllag (h : Hd) (c : BitVec 3) (o : BitVec 1) (x : BitVec 2) (i : BitVec 1) (n : BitVec 6)
  | qmark (h : Hd)
  | fence (h : Hd) (p : BitVec 3)
  | atom (h : Hd) (o : BitVec 3) (t : BitVec 3) (a : BitVec 6)
  | atomr (h : Hd) (o : BitVec 3) (t : BitVec 3) (a : BitVec 6) (d : BitVec 6)
  | atomx (h : Hd) (o : BitVec 3) (t : BitVec 3) (a : BitVec 6) (d : BitVec 6)
  | deal (h : Hd) (d : BitVec 6)
  | gbar (h : Hd)
  | coll (h : Hd) (a : BitVec 6)
  | waitf (h : Hd) (k : BitVec 3) (a : BitVec 6)
  | flagw (h : Hd) (m : BitVec 5) (p : BitVec 3) (a : BitVec 6)
  | hclr (h : Hd) (hn : BitVec 2)
  | smerge (h : Hd) (hn : BitVec 2) (c : BitVec 1) (k : BitVec 3) (a : BitVec 6) (b : BitVec 6)
  | hrd (h : Hd) (hn : BitVec 2) (c : BitVec 1) (f : BitVec 2) (x : BitVec 1) (d : BitVec 6)
  | hwr (h : Hd) (hn : BitVec 2) (c : BitVec 1) (x : BitVec 1) (a : BitVec 6)
  | ssort (h : Hd) (c : BitVec 1) (k : BitVec 3) (a : BitVec 6) (d : BitVec 6)
  | spick (h : Hd) (hn : BitVec 2) (a : BitVec 6) (d : BitVec 6)
  | srnd (h : Hd) (g : BitVec 2) (d : BitVec 6)
  | sradd (h : Hd) (g : BitVec 2) (a : BitVec 6)
  | srld (h : Hd) (g : BitVec 2) (a : BitVec 6)
  | srst (h : Hd) (g : BitVec 2) (a : BitVec 6)
  | suni (h : Hd) (a : BitVec 6) (d : BitVec 6)
  | sacc (h : Hd) (k : BitVec 3) (a : BitVec 6)
  | sqfork (h : Hd) (c : BitVec 5) (a : BitVec 6) (d : BitVec 6)
  | sqapp (h : Hd) (c : BitVec 5) (a : BitVec 6) (d : BitVec 6)
  | sqcommit (h : Hd) (c : BitVec 5) (a : BitVec 6) (d : BitVec 6)
  | sqtrunc (h : Hd) (a : BitVec 6) (d : BitVec 6)
  | sqcur (h : Hd) (a : BitVec 6) (d : BitVec 6)
  | sqframe (h : Hd) (a : BitVec 6) (d : BitVec 6)
  | fmtw (h : Hd) (a : BitVec 6)
  | fmtr (h : Hd) (d : BitVec 6)
  | sysrd (h : Hd) (d : BitVec 6) (n : BitVec 12)
  | syswr (h : Hd) (r : BitVec 6) (n : BitVec 12)
  | isaq (h : Hd) (d : BitVec 6) (sl : BitVec 3)
  | cyc (h : Hd) (d : BitVec 6)
  | trap (h : Hd) (c : BitVec 12)
  | eret (h : Hd)
  | watch (h : Hd) (w : BitVec 2) (a : BitVec 6)
  | bkpt (h : Hd) (c : BitVec 12)
  | powerOn
  | resetAssert
  | bootImageFetch
  | bootImageTimeout
  | quote
  | loadKeySlot
  | clearKeySlot
  | tlbInvalidationComplete
  | dieDrained
  | heartbeatTimeout
  | resultLanding
  | checkpointConfirm
  | storeQueueSend
  | contextSwitch
  | faultReport
  | moduloKernelCycle
  | segmentPrefetchComplete
  | arrayItemEntry
  | beatSettle
  | edgeRowLanding
  | drainLanding
  | arrayOwnershipEnd
  | bindCoreGroup
  | overlaySwap
  | contextSave
  | dealerRequest
  | sequenceUnitOperation
  | copyCommandStart
  | flagwFlagWrite
  | waitfReload
  | waitfDeadline
  | cycleChargeReport
  | segmentFetchComplete
  | heartbeat
  deriving DecidableEq, Repr, Inhabited

end Sys2Proof
end

