-- ==== Sys2Proof/Machine/State.lean ====
section
/-! DEFINITION. The state of the load-store domain, as plain data, and its value right after reset. -/

namespace Sys2Proof.Machine

/-- A table by number; a number not listed has the table's default, which each accessor names. -/
abbrev Tab (α : Type) := List (Nat × α)

/-- Why a step has no next state. -/
inductive Fault where
  /-- Raised by the step when its agenda names a package, die, core or context that R11 to R15 do not number. Safe. -/
  | noSuchPlace
  deriving DecidableEq, Repr

/-- Why an instruction has no meaning. -/
inductive Refusal where
  /-- Raised by the dispatch alone, for an instruction whose meaning is not written. Safe. -/
  | notModelled (mnemonic : String)
  deriving DecidableEq, Repr

/-- An exact value of the number formats (R89, R94): a NaN (signalling or quiet), an infinity, or (−1)^neg × m × 2^e. -/
inductive Ext where
  | nan (sig : Bool)
  | inf (neg : Bool)
  | fin (neg : Bool) (m : Nat) (e : Int)
  deriving DecidableEq, Repr, Inhabited

/-! ### A context -/

/-- A fetched segment: header fields and code words (R220). -/
structure Seg where
  va : Nat
  major : Nat
  feats : Nat
  entry : Nat
  next : Nat
  alt : Nat
  trailer : Nat
  preload : Nat
  code : List Nat
  deriving DecidableEq, Repr, Inhabited

/-- One slot of the bundle in issue: its word, the offset of its body row or bundle, the offset of the first slot of the bundle that
issues, its position there, and, in a modulo kernel, its iteration n, the count N and the actual number a_n (R71). -/
structure Slot where
  word : Nat
  off : Nat
  head : Nat
  pos : Nat
  iter : Option (Nat × Nat × Nat)
  deriving DecidableEq, Repr, Inhabited

/-- A circular-buffer handle (R138) with its unreleased CBADV.W count (R139), its CBSETs not
yet in effect, and which producers have advanced WP since the last CBSET (R140). -/
structure CBuf where
  base : Nat
  ssize : Nat
  nslot : Nat
  wp : Nat
  rp : Nat
  rpc : Nat
  pendW : Nat
  pendSet : Nat
  prog : Bool
  eng : Bool
  deriving DecidableEq, Repr, Inhabited

/-- An entry of a hand (R191). -/
structure HEntry where
  key : BitVec 32
  index : BitVec 32
  weight : BitVec 32
  valid : Bool
  deriving DecidableEq, Repr, Inhabited

/-- A generator register (R196) with its lookahead blocks, tagged with slot and counter (R197). -/
structure Gen where
  ctr : BitVec 128
  slot : Nat
  look : List (Nat × BitVec 128 × BitVec 128)
  deriving DecidableEq, Repr, Inhabited

/-- An outbound FIFO (R177): words held, words of the packet under build, its tlf number, and its translated DEST and FADDR
(address, leaf entry). -/
structure Fo where
  held : Nat
  build : List (BitVec 128)
  num : Nat
  dest : Nat × Nat
  flag : Nat × Nat
  deriving DecidableEq, Repr, Inhabited

/-- A LOADREQ of a fabric FIFO unanswered (R179): request number, bundle, port, words reserved, tlf number, virtual address. -/
structure FiReq where
  id : Nat
  ser : Nat
  port : Nat
  words : Nat
  num : Nat
  va : Nat
  deriving DecidableEq, Repr, Inhabited

/-- A word of an inbound FIFO (R178): bits, the error of its packet (0 for none) with its address, the bundle of the LOADREQ it
answers, and the order number of that request. -/
structure FiWord where
  word : BitVec 128
  err : Nat
  faddr : Nat
  ser : Option Nat
  ord : Nat
  deriving DecidableEq, Repr, Inhabited

/-- An inbound FIFO (R178): words in order. -/
structure Fi where
  words : List FiWord
  deriving DecidableEq, Repr, Inhabited

/-- The sequencer state of one level (R67). -/
structure Level where
  trip : Nat
  bstart : Nat
  bend : Nat
  idx : Nat
  strides : Tab (Nat × Word)
  modulo : Bool
  tiled : Bool
  ii : Nat
  st : Nat
  mask : Wide
  tm : Nat
  deriving DecidableEq, Repr, Inhabited

/-- The registers of one context that bundles write (R81). -/
structure Regs where
  s : Tab Word
  p : Tab Bool
  v : Tab Wide
  w : Tab Wide
  vk : Tab Mask
  wk : Tab Mask
  tm : Tab Wide
  cb : Tab CBuf
  hand : Tab (List HEntry)
  gen : Tab Gen
  lvl : Tab Level
  base : Nat
  zc : Nat
  fmt : Word
  fmtq : List (Word × Nat)
  deriving DecidableEq, Repr, Inhabited

/-- A register that the undo log and landing results name (R81). Vector registers are physical. -/
inductive RegId where
  | s (n : Nat)
  | p (n : Nat)
  | v (cl : Bool) (n : Nat)
  | k (cl : Bool) (n : Nat)
  | tm (n : Nat)
  | hand (n : Nat)
  | gen (n : Nat)
  | cbrp (n : Nat)
  | lvl (n : Nat)
  | base
  | fmt
  | zc
  deriving DecidableEq, Repr, Inhabited

/-- A register's value in the undo log or in flight (R81); `orBit` is the tile bit that a scout lands (R130). -/
inductive RegVal where
  | bits (n : Nat)
  | hand (h : List HEntry)
  | gen (g : Gen)
  | lvl (l : Level)
  | fmt (f : Word) (q : List (Word × Nat))
  | orBit (n : Nat)
  deriving DecidableEq, Repr, Inhabited

/-- An undo-log entry with the number of its bundle (R81). -/
structure Undo where
  ser : Nat
  reg : RegId
  old : RegVal
  deriving DecidableEq, Repr, Inhabited

/-- A result in flight (R61): landing and issue cycles, bundle, position (8 for a stride write, R228), register, value,
flag register 0 to 3 (R104) and the flags it raises. -/
structure Landing where
  due : Nat
  iss : Nat
  ser : Nat
  pos : Nat
  reg : RegId
  val : RegVal
  fl : Nat
  flags : Flags
  deriving DecidableEq, Repr, Inhabited

/-- Where a transfer of control goes: an offset, a segment, or an address that is no slot of the code (R64, R78, R209). -/
inductive Target where
  | off (n : Nat)
  | seg (va : Nat)
  | bad (va : Nat)
  deriving DecidableEq, Repr, Inhabited

/-- A control transfer in its delay bundles (R64): how many are left, the target if taken, the drain bit, and whether it leaves
the nest (R75, R237), whether its delay bundles may lie at a BEND (R75, R76), and whether one that leaves the nest issued in a kernel
cycle, so that kernel cycles are its delay bundles (R75). -/
structure Xfer where
  left : Nat
  target : Option Target
  drain : Bool
  leave : Bool
  bendOk : Bool
  inKernel : Bool
  deriving DecidableEq, Repr, Inhabited

/-- The control state of a context: segment, offset of the next bundle, transfer, active depth, levels entered, kernel cycle of
a modulo L0 and whether its strides and rotation are made (R64 to R76, R366), the target address of a transfer that is no slot of the code (R209), whether the segment is to be
entered at its ENTRY (R78), the L0 strides that the next bundle is to see applied (R71, R74), and, in the delay bundles of a transfer
that leaves a plain nest, the iterations that levels have gone on to while their IDX stands (R75). -/
structure Ctl where
  seg : Nat
  off : Nat
  xfer : Option Xfer
  depth : Nat
  inside : List Nat
  kern : Option Nat
  begun : Bool
  bad : Option Nat
  entry : Bool
  tail : Nat
  ahead : List (Nat × Nat)
  deriving DecidableEq, Repr, Inhabited

/-- A checkpoint (R80): its bundle, issue cycle, restart control state, RP of every handle (R140), timeline counters (R366),
whether its context owned the array, and was releasing it (R290), whether it is a pre-emption point (R52), and the outbound FIFOs (R366). -/
structure Ckpt where
  ser : Nat
  cyc : Nat
  ctl : Ctl
  rps : Tab Nat
  tl : Tab Nat
  owned : Bool
  releasing : Bool
  snap : Bool
  fos : Tab Fo
  deriving DecidableEq, Repr, Inhabited

/-- An entry of the load data queue (R157): request number, bundle, size, whether its data has returned, data, failure. -/
structure LdEnt where
  id : Nat
  ser : Nat
  n : Nat
  done : Bool
  data : List Byte
  err : Nat
  faddr : Nat
  deriving DecidableEq, Repr, Inhabited

/-- An entry of the gather data queue (R299): request number, bundle, tlg number, element bytes, lanes by number, lanes missing. -/
structure GEnt where
  id : Nat
  ser : Nat
  num : Nat
  e : Nat
  lanes : Tab (List Byte)
  left : Nat
  whole : Bool
  err : Nat
  faddr : Nat
  deriving DecidableEq, Repr, Inhabited

/-- What the load queue holds in issue order (R157, R160 to R162). -/
inductive LqKind where
  | load (va n : Nat) (acq : Bool)
  | lane (va n lane : Nat)
  | mark (scope : Nat) (fence : Bool)
  | fi (port : Nat) (tag n : Nat) (pa pte va : Nat)
  deriving DecidableEq, Repr, Inhabited

/-- One load-queue item: request number, bundle, kind, whether sent. -/
structure LqItem where
  id : Nat
  ser : Nat
  kind : LqKind
  sent : Bool
  deriving DecidableEq, Repr, Inhabited

/-- A copy-engine command (R304): tlc number, PTROOT, order number, order number at its release, kind 0 CPY, 1 CPYT, 2 CPYM, 3 CPYC,
4 CBSET; operands; buffer; tile mask; stage 0 withheld, 1 released, 2 started, 3 moved; slots filled; failure. It moves one line at a
time: number of the move, or of the destination line of a CPYT, and bytes of it done; whether the line is 0 to be read, 1 asked for, 2 read, 3 sent;
its bytes read and its runs written; whether it has read a sector that fails its check (R363); and the bytes of the command that another agent has written while it runs, as physical addresses, or as
places of the local memories. -/
structure Cmd where
  num : Nat
  root : Nat
  ser : Nat
  rel : Nat
  kind : Nat
  ops : List Nat
  cb : Nat
  mask : Wide
  stage : Nat
  slots : Nat
  err : Nat
  faddr : Nat
  pos : Nat
  off : Nat
  io : Nat
  buf : List Byte
  run : Nat
  bad : Bool
  dirty : List Nat
  deriving DecidableEq, Repr, Inhabited

/-- A command with nothing in it. -/
def Cmd.reset : Cmd :=
  { num := 0, root := 0, ser := 0, rel := 0, kind := 0, ops := [], cb := 0, mask := 0, stage := 0, slots := 0, err := 0, faddr := 0
    pos := 0, off := 0, io := 0, buf := [], run := 0, bad := false, dirty := [] }

/-- A FLAGW (R315): order number, order number at its release, bundle, address, value, covered operations, scope, whether released and
whether sent. -/
structure FlagW where
  id : Nat
  rel : Nat
  ser : Nat
  va : Nat
  val : Word
  cover : List (Nat × Nat)
  scope : Nat
  released : Bool
  sent : Bool
  deriving DecidableEq, Repr, Inhabited

/-- A COLL (R313): tlk number, PTROOT, order number, order number at its release, member-block address, whether released and started,
packets unanswered, failure, and the block as its engine read it (R183): the fields of the block in the order of its table. `io` says that
a read is out; `off` and `buf` are the bytes of SRC read and those of them not yet sent, `first` the elements sent; `raced` says that block or source
was written since the release (R313). -/
structure CollOp where
  num : Nat
  root : Nat
  ser : Nat
  rel : Nat
  va : Nat
  released : Bool
  started : Bool
  out : Nat
  err : Nat
  faddr : Nat
  blk : List Nat
  io : Bool
  off : Nat
  buf : List Byte
  first : Nat
  raced : Bool
  deriving DecidableEq, Repr, Inhabited

/-- An operation with nothing in it. -/
def CollOp.reset : CollOp :=
  { num := 0, root := 0, ser := 0, rel := 0, va := 0, released := false, started := false, out := 0, err := 0, faddr := 0, blk := []
    io := false, off := 0, buf := [], first := 0, raced := false }

/-- An effect withheld until a checkpoint confirms (R82). -/
inductive Eff where
  | store (va : Nat) (data : List Byte) (scope : Option Nat)
  | scat (num : Nat) (lanes : List (Nat × List Byte))
  | atom (num op ty va : Nat) (v cmp : Word) (dst : Option Nat) (x : Bool)
  | packet (port num : Nat) (words : List (BitVec 128)) (dest flag : Nat × Nat)
  | cmd (num : Nat)
  | cbadv (cb n : Nat)
  | coll (num : Nat)
  | flagw (id : Nat)
  | sysw (n : Nat) (v : Word)
  | deal (d : Nat)
  | gbar
  | taskend
  | seqop (op c d desc : Nat) (x y : Word)
  | trap (code : Nat) (faddr bundle slot : Nat)
  | eret
  deriving DecidableEq, Repr, Inhabited

/-- A withheld effect with its bundle and position (R82), whether its checkpoint has confirmed, and its order number. -/
structure Held where
  ser : Nat
  pos : Nat
  eff : Eff
  rel : Bool
  ord : Nat
  deriving DecidableEq, Repr, Inhabited

/-- A store-queue entry (R157): order number, PTROOT, order number at its release, lane of a SCAT, effect, and whether it has entered the egress. An entry sent stays until
answered so that scopes can be judged (R159). -/
structure StEnt where
  id : Nat
  root : Nat
  rel : Nat
  lane : Nat
  eff : Eff
  sent : Bool
  deriving DecidableEq, Repr, Inhabited

/-- A deferred error (R356): order of its operation, counter and number (counter 5 for none), code, address. -/
structure Deferred where
  ord : Nat
  ctr : Nat
  num : Nat
  code : Nat
  faddr : Nat
  deriving DecidableEq, Repr, Inhabited

/-- A fault found and not yet reported (R364): code, bundle, cycle from which it reports, position, bundle address, FADDR, and
the watch register that matched (R333), and the order number of the deferred error it reports (R356). -/
structure Found where
  code : Nat
  ser : Nat
  due : Nat
  slot : Nat
  bundle : Nat
  faddr : Nat
  watch : Option Nat
  defd : Option Nat
  deriving DecidableEq, Repr, Inhabited

/-- A WAITF in progress (R314): its number, operands, cycle of its last load, whether a load is yet to be sent, whether the last load is
the one at the deadline, and its outcome. -/
structure WaitF where
  id : Nat
  va : Nat
  val : Word
  deadline : Nat
  last : Nat
  due : Bool
  final : Bool
  result : Option Bool
  err : Nat
  deriving DecidableEq, Repr, Inhabited

/-- The checkpoint-bundle response a context waits for (R84): bundle, bundle address, position, and what it is. -/
structure Wait where
  ser : Nat
  bundle : Nat
  slot : Nat
  eff : Eff
  deriving DecidableEq, Repr, Inhabited

/-- The queues and engines' work of one context. `failed` names the failed operations of the task by counter and number, reported or not (R388). -/
structure Queues where
  nextId : Nat
  ldq : List LdEnt
  gdq : List GEnt
  lq : List LqItem
  ldKept : List (Nat × LdEnt)
  gKept : List (Nat × GEnt)
  fiKept : List (Nat × Nat × FiWord)
  dropped : List LdEnt
  gDropped : List GEnt
  stq : List StEnt
  fo : Tab Fo
  fi : Tab Fi
  fiOut : List FiReq
  cmds : List Cmd
  colls : List CollOp
  flagws : List FlagW
  tl : Tab Nat
  tlOut : List (Nat × Nat)
  deferred : List Deferred
  failed : List Deferred
  cut : List (Nat × Nat)
  deriving DecidableEq, Repr, Inhabited

/-- The pipeline of one context: number of the bundle in issue, the cycle from which every issued bundle is past its fault
horizon, in-flight results, undo log, withhold buffer, checkpoints (R61, R80 to R82), the timeline counters as they stood
before the bundle in issue (R61), registers in which a write landed while one of an earlier bundle was in flight: earlier bundle,
later bundle, register, and the writes, by bundle and register, that leave an undefined value after a replay of such bundles (R368). -/
structure Pipe where
  ser : Nat
  horizon : Nat
  infl : List Landing
  undo : List Undo
  held : List Held
  cks : List Ckpt
  restart : Ckpt
  fault : Option Found
  wait : List Wait
  waitf : Option WaitF
  tl0 : Tab Nat
  clash : List (Nat × Nat × RegId)
  lost : List (Nat × RegId)
  deriving DecidableEq, Repr, Inhabited

/-- The system registers of one context that are not derived (R104, R329), flags by number 0 SFLG to 3 AFLG; `fresh` holds the flags
that landed in the latest cycle in which any did: cycle, flag register, flags (R328). -/
structure Sys where
  flg : Tab Flags
  fresh : List (Nat × Nat × Flags)
  fcode : Word
  faddr : Word
  fbundle : Word
  fslot : Word
  fresume : Word
  h : Bool
  fscr0 : Word
  fscr1 : Word
  watch : Tab Word
  bke : Bool
  deriving DecidableEq, Repr, Inhabited

/-- A context's binding (R44, R49): region block, member, PTROOT, HANDLER, SEGPTR; whether its task has ended and awaits its
group; deals not yet counted as ended; barriers passed (R56); its last non-empty deal, whether that deal is to be handed again
and has been rerun (R359); and an overlay swap under way, 1 without and 2 with zeroing (R50). -/
structure Bind where
  blk : Nat
  member : Nat
  root : Nat
  handler : Nat
  segptr : Nat
  ended : Bool
  dealt : Nat
  gbars : Nat
  deal : Option (Nat × Nat)
  again : Bool
  reran : Bool
  swap : Nat
  deriving DecidableEq, Repr, Inhabited

/-- A hardware context (R15, R18); `aside` holds the program's control state, levels and
rotation base while its handler runs (R331); `stopping` is 0, 1 with a suspend pending, 2 when it is to stop, 3 stopped, 4 when its core is retired (R52, R359,
R407);
`pre` is the block whose first segment stands preloaded in the idle half, and `preBank` a preload of a bank group: block, bytes copied, bytes
to copy (R51, R397); `claims` are the banks that the bundle in issue has taken, and from 32 its accumulator-memory rows (R136, R141); `mchk` is a
machine check found against the context, code and location (R370). -/
structure Ctx where
  bind : Option Bind
  ctl : Ctl
  half : Option Seg
  idle : Option Seg
  fetch : Option (Nat × Bool)
  latch : List Slot
  cur : Slot
  claims : List Nat
  drain : Bool
  yielding : Bool
  aside : Option (Ctl × Tab Level × Nat)
  regs : Regs
  sys : Sys
  pipe : Pipe
  q : Queues
  stopping : Nat
  notBefore : Nat
  pre : Option Nat
  preBank : Option (Nat × Nat × Nat)
  mchk : Option (Nat × Nat)
  deriving DecidableEq, Repr, Inhabited

/-! ### A core -/

/-- An entry of the tag table (R142). -/
structure TagEnt where
  valid : Bool
  ctx : Nat
  key : Word
  slot : BitVec 16
  deriving DecidableEq, Repr, Inhabited

/-- A cached translation (R152): root, page number and its size in bits, leaf entry, kept forward (R378). -/
structure TlbEnt where
  root : Nat
  vpn : Nat
  sz : Nat
  pte : Nat
  fwd : Option (Nat × Nat)
  deriving DecidableEq, Repr, Inhabited

/-- What an array item does (R113): a beat of entry e with its A and B lines and scale lines, or a control item. -/
inductive ItemKind where
  | beat (e : Nat) (a b sa sb : Nat)
  | drain (row : Nat)
  | scout (tm t : Nat)
  | shift (row target : Nat)
  | clear
  | cell (prog : Nat)
  | cfg (w : Nat)
  | thr (w : Nat)
  | snap
  deriving DecidableEq, Repr, Inhabited

/-- A queued array item (R113): bundle, context, eligible cycle, the FMT of its bundle (R97). -/
structure Item where
  ser : Nat
  ctx : Nat
  elig : Nat
  fmt : Word
  kind : ItemKind
  deriving DecidableEq, Repr, Inhabited

/-- The three registers of every cell, by 32i + j (R115). -/
structure Grid where
  acc : Tab (BitVec 32)
  c0 : Tab (BitVec 32)
  c1 : Tab (BitVec 32)
  deriving DecidableEq, Repr, Inhabited

/-- The state at the array's edges that a restart token saves with the cell copies (R367): cell program, configuration,
threshold word and the MC of its MTHR, RUNMAX, beats since the MCFG item. -/
structure Edge where
  prog : Nat
  cfg : Nat
  thr : Nat
  thrMc : Nat
  runmax : Ext
  n : Nat
  deriving DecidableEq, Repr, Inhabited

/-- A column or edge row on its way out of the array (R123, R126, R130): landing cycle, bundle, context, row of accumulator
memory (none for a scouted column), data, whether it is an edge row. -/
structure Exit where
  due : Nat
  ser : Nat
  ctx : Nat
  row : Option Nat
  data : Nat
  edge : Bool
  deriving DecidableEq, Repr, Inhabited

/-- A wave crossing the array (R113, R131, R412): entry cycle, context, kind 0 control, 1 beat, 2 snap token; flags set at
settling; the grid before it. -/
structure Crossing where
  entry : Nat
  ctx : Nat
  kind : Nat
  flags : Flags
  before : Grid
  deriving DecidableEq, Repr, Inhabited

/-- The cell array of a core (R113 to R131): cells and copies, edge state and its copy, owner, release begun, queue, cycle from
which the next item may enter, waves, exits, and a rollback that awaits the array (R367): context, whether it owned the array, and
whether it was releasing it. -/
structure Arr where
  grid : Grid
  copy : Grid
  edge : Edge
  edgeCopy : Edge
  owner : Option Nat
  releasing : Bool
  items : List Item
  free : Nat
  cross : List Crossing
  exits : List Exit
  rest : Option (Nat × Bool × Bool)
  deriving DecidableEq, Repr, Inhabited

/-- A word that holds an error: its structure as R370 numbers them (2 scratchpad, 3 accumulator memory, 10 cells), its address there, and whether the
error is corrected at a read (0), is not (1), or is a check value that its sector does not match (2; R381). -/
structure WordErr where
  st : Nat
  word : Nat
  kind : Nat
  deriving DecidableEq, Repr, Inhabited

/-- A core (R18): `errs` are words with errors (R370); `recent` and `accOld` serve reads of bytes just stored (R61, R135, R274), accumulator-memory bytes in `recent` from 2^22;
`busy` are the banks, and from 32 the accumulator-memory rows, that the bundle and the landings of the cycle just passed occupied, and `landed`
the rows landed in this cycle (R137, R141); `charge` counts cycles by region block, and
`lastBlk` is the region of the context that issued most recently (R46). -/
structure Core where
  on : Bool
  cycle : Nat
  ctxs : Tab Ctx
  cur : Option Nat
  last : Option Nat
  switch : Nat
  spad : List Host.Cell
  recent : List (Nat × Nat × Nat)
  accm : List Host.Cell
  accOld : List (Nat × Byte)
  busy : List Nat
  landed : List Nat
  errs : List WordErr
  tags : Tab TagEnt
  tlb : List TlbEnt
  arr : Arr
  charge : Tab Nat
  lastBlk : Option Nat
  deriving DecidableEq, Repr, Inhabited

/-! ### A die -/

/-- A source agent's record for one destination station (R180, R181): next SEQ, unanswered requests with their NACK count and
their wait before they are sent again, redirected requests that are yet to go to their new place, in egress order, and pages of the station known to
have moved, each with its new page (R378). -/
structure Source where
  seq : Nat
  sent : List (Packet × Nat × Nat)
  redir : List (Nat × Packet)
  moved : List (Nat × Nat)
  deriving DecidableEq, Repr, Inhabited

/-- A memory watch (R383). -/
structure MWatch where
  ctl : Word
  ev : Word
  agt : Word
  adr : Word
  val : Word
  deriving DecidableEq, Repr, Inhabited

/-- A source that has sent nothing to a station. -/
def Source.reset : Source := ⟨0, [], [], []⟩

/-- One operation of a collective group at its home engine (R183 to R185): the block of its first contribution, elements landed per
member, where they landed (member, byte of its contribution, length, address), members folded, running results with their member index,
each member's core, context, tlk number, PTROOT and block, and the members whose result is not yet delivered once the last is folded. -/
structure CollInst where
  inst : Nat
  blk : List Nat
  landed : Tab Nat
  places : List (Nat × Nat × Nat × Nat)
  folded : Nat
  acc : List (Nat × Nat)
  members : Tab (Nat × Nat × Nat × Nat × List Nat)
  left : Option (List Nat)
  deriving DecidableEq, Repr, Inhabited

/-- A collective group by its slot buffer (R184): its current instance, its operations, and the delivery under way: bytes of the result sent,
whether a packet is unanswered (R185). -/
structure CollGroup where
  buf : Nat
  cur : Nat
  insts : List CollInst
  off : Nat
  out : Bool
  deriving DecidableEq, Repr, Inhabited

/-- An operation queued at a sequence unit or dealer, from a context with its PTROOT (R202, R48). -/
structure UnitReq where
  l : Loc
  c : Nat
  root : Nat
  ser : Nat
  eff : Eff
  deriving DecidableEq, Repr, Inhabited

/-- The memory of a die: bytes, sectors stored with ENC = 0, poisoned sectors, sectors with an error that nothing has found yet, one that cannot be
corrected (`dead`) or one that is (`soft`), sectors that fail their check (R149, R380), and ranges whose content a device has lost: first byte,
end, draw number of the loss (R382). -/
structure Store where
  mem : List Host.Cell
  plain : List Nat
  poison : List Nat
  dead : List Nat
  soft : List Nat
  bad : List Nat
  lost : List (Nat × Nat × Nat)
  deriving DecidableEq, Repr, Inhabited

/-- The device registers of a die that are held (R27, R35, R151, R188, R362, R376, R380 to R386, R406). -/
structure DevRegs where
  bootlen : Nat
  winbase : Nat
  hbmtop : Nat
  tlbq : List Word
  mbxreq : Word
  mbxres : Nat
  mbxbusy : Bool
  mbxdone : Nat
  elog : Tab (Word × Word × Word × Word)
  elogcnt : Nat
  cecnt : Nat
  hbmce : Nat
  portUp : Nat
  portDown : Nat
  fwdctl : Word
  unrch : Word
  mw : Tab MWatch
  svcres : Nat
  svccmd : Word
  svcbusy : Bool
  dumped : Bool
  drained : Bool
  retired : Nat
  deriving DecidableEq, Repr, Inhabited

/-- The boot phase of a die (R24 to R27). -/
inductive Boot where
  | off
  | awaitImage
  | ready
  | failed
  deriving DecidableEq, Repr, Inhabited

/-- A sequence operation whose response waits for the host to complete its writes (R190, R202): the request, register, numbers of the writes,
code and address it fails with, or its word. -/
structure SeqOut where
  u : UnitReq
  dst : Nat
  out : Nat × Nat
  code : Nat
  va : Nat
  word : Word
  deriving DecidableEq, Repr, Inhabited
/-- A mailbox request whose outputs the host is to complete (R35, R190): their numbers, its flag, value and result. -/
structure MailOut where
  out : Nat × Nat
  flag : Nat
  fval : List Byte
  res : Nat
  deriving DecidableEq, Repr, Inhabited

/-- A die: compute or bridge (R14, R16). `tlbwait` names accesses under a translation since invalidated (R151); `spares` are the rows
replaced (R411); `restarting` says that its management processor restarts in a new image (R409); `rr` and `elig` are the scheduler's pointers and eligible regions with their order, and `due` says that binding is to be
considered (R44); `deploy` holds the fields of the deployment record that the die has verified, none before that (R24, R29); `fw` and
`imgHash` are version and hash of the running firmware image (R32). -/
structure Die where
  boot : Boot
  store : Store
  bootwin : List Host.Cell
  regs : DevRegs
  keys : Tab (BitVec 256)
  tlb : List TlbEnt
  tlbwait : List (Nat × Nat × Nat × Nat)
  walks : List (Nat × Nat)
  src : Tab Source
  expect : Tab Nat
  xfers : List (Nat × Nat × Nat)
  atomq : Tab (List Packet)
  hot : Tab (List Nat)
  colls : List CollGroup
  seqq : List UnitReq
  seqOut : Option SeqOut
  mailOut : Option MailOut
  dealq : List UnitReq
  roots : List Nat
  rr : Tab Nat
  elig : List (Nat × Nat)
  due : Bool
  reserve : Nat
  draining : Bool
  restarting : Bool
  bypassed : Bool
  missed : Nat
  limit : Nat × Nat
  spares : List Nat
  deploy : List Nat
  fw : Word
  imgHash : List Byte
  deriving DecidableEq, Repr, Inhabited

/-! ### Regions -/

/-- A core group of a region (R44): its core, member, number of contexts, whether it is narrowed, and for which region (that region's
block; 0 for service or none; its own region's block for a saved context that waits, R54), the shared deal, who has received it and the task
that it is counted with, the deals by task, a context for each task end not yet counted (R48; tasks are numbered from the oldest one not yet
counted), and contexts whose binding has ended. -/
structure Group where
  l : Loc
  member : Nat
  size : Nat
  narrowed : Bool
  cause : Nat
  shared : Option (Nat × Nat)
  got : List Nat
  task : Option Nat
  dealt : Tab Nat
  ended : List Nat
  gone : List Nat
  counted : Bool
  deriving DecidableEq, Repr, Inhabited

/-- A saved context (R53): save slot, the suspension that saved it, context number, its core group as it stood, its state and restart address; `fresh` is a
context of a lost die, which has no slot and whose deal runs once more from the task's entry (R359, R410). -/
structure Saved where
  slot : Nat
  era : Nat
  c : Nat
  group : Group
  ctx : Ctx
  resume : Nat
  fresh : Bool
  deriving DecidableEq, Repr, Inhabited

/-- A region as the scheduler holds it: the block's fields after inheritance (R38) and its progress (R41 to R56): die
numbers of its home and of the die that launched it, its groups, its saved contexts; `pend` holds the counters of contexts whose
tasks have ended (R43), `rerun` a gang that is to run once more (R396); `tree` numbers the launch that it belongs to and `era` its
suspensions; `flagOut` bounds the numbers of its flag's writes to host memory, of which the host may have some to complete (R190). -/
structure Region where
  blk : Nat
  parent : Nat
  tree : Nat
  kind : Nat
  prio : Nat
  urgent : Bool
  shared : Bool
  policy : Nat
  fdom : Nat
  diemask : Nat
  state : Nat
  bcores : Nat
  ctxpc : Nat
  resv : Nat
  savemask : Nat
  plgrp : Nat
  bcycles : Nat
  bmem : Nat
  ptroot : Nat
  segptr : Nat
  argptr : Nat
  ntask : Nat
  minch : Nat
  maxch : Nat
  cflag : Nat
  cval : Word
  handler : Nat
  saveptr : Nat
  plsrc : Nat
  pllen : Nat
  next : Nat
  ended : Nat
  used : Nat
  home : Nat
  launch : Nat
  groups : List Group
  saved : List Saved
  era : Nat
  suspending : Bool
  resumeHeld : Bool
  flagged : Bool
  flagOut : Nat × Nat
  reran : Bool
  rerun : Bool
  pend : List (Loc × Nat × Tab Nat)
  deriving DecidableEq, Repr, Inhabited

/-! ### The domain -/

/-- A signed object in flash (R26): key, fields, body, signature. -/
structure Signed where
  key : List Byte
  fields : List Nat
  body : List Byte
  r : Nat
  s : Nat
  deriving DecidableEq, Repr, Inhabited

/-- The records of one package's board flash (R26): device record fields are the enabled-core bits of dies 0 to 7, the owner key hash, and
then the rows that spare rows replace, each as the row's physical address (R411); deployment record fields are source (0 flash, 1 host
port), package, host package, host die bit, CFGVER, power limit. `helper` and `certs` hold the helper data and the identity certificate of
each die (R31). -/
structure Flash where
  device : Option Signed
  deploy : Option Signed
  image : Option Signed
  helper : Tab (List Byte)
  certs : Tab (List Byte)
  deriving DecidableEq, Repr, Inhabited

/-- The host side (R188 to R190): memory, writes to it not yet completed, the next tag, accesses of the host not yet sent in
arrival order, and answers to host reads: tag, status (0 success, 1 Unsupported Request, 2 Completer Abort), data. -/
structure HostSide where
  mem : List Host.Cell
  posted : List (Nat × Packet)
  nextTag : Nat
  queue : List Packet
  answers : List (Nat × Nat × List Byte)
  deriving DecidableEq, Repr, Inhabited

/-- Who moves next (log entry 4): an event or operation at a core and context, or the n-th operation in flight. -/
inductive Turn where
  | at_ (l : Loc) (c : Nat) (i : Instr)
  | focus (l : Loc)
  | pick (n : Nat)
  deriving DecidableEq, Repr, Inhabited

/-- An operation in flight between agents: where it acts and what it is. -/
structure Todo where
  l : Loc
  c : Nat
  i : Instr
  deriving DecidableEq, Repr, Inhabited

/-- The load-store domain (R21). `focus` and `sub` are the core and context that the next move acts at; `draw` numbers free
values; `agenda` and `todo` say who moves next; `owed` are the roots of refused trees whose flag is yet to be written (R391). -/
structure State where
  cores : Tab Core
  dies : Tab Die
  flash : Tab Flash
  regions : List Region
  owed : List Region
  host : HostSide
  focus : Loc
  sub : Nat
  draw : Nat
  agenda : List Turn
  todo : List Todo
  deriving DecidableEq, Repr, Inhabited

/-! ### Reset -/

/-- A handle with every field 0 (log entry 1). -/
def CBuf.reset : CBuf :=
  { base := 0, ssize := 0, nslot := 0, wp := 0, rp := 0, rpc := 0, pendW := 0, pendSet := 0, prog := false, eng := false }
/-- An invalid hand entry of weight 0 (log entry 1). -/
def HEntry.reset : HEntry := { key := 0, index := 0, weight := 0, valid := false }
/-- Counter 0, slot 0, no lookahead (log entry 1). -/
def Gen.reset : Gen := { ctr := 0, slot := 0, look := [] }
/-- An empty outbound FIFO. -/
def Fo.reset : Fo := { held := 0, build := [], num := 0, dest := (0, 0), flag := (0, 0) }
/-- An empty inbound FIFO. -/
def Fi.reset : Fi := { words := [] }
/-- A level with every field 0 and II = S = 1 (log entry 1). -/
def Level.reset : Level :=
  { trip := 0, bstart := 0, bend := 0, idx := 0, strides := [], modulo := false, tiled := false, ii := 1, st := 1, mask := 0, tm := 0 }
/-- Registers of a context at zero, FMT at its reset value 0 (R87; log entry 1). -/
def Regs.reset : Regs where
  s := []
  p := []
  v := []
  w := []
  vk := []
  wk := []
  tm := []
  cb := []
  hand := []
  gen := []
  lvl := []
  base := 0
  zc := 0
  fmt := 0
  fmtq := []
/-- No transfer, no nest. -/
def Ctl.reset : Ctl where
  seg := 0
  off := 0
  xfer := none
  depth := 0
  inside := []
  kern := none
  begun := false
  bad := none
  entry := false
  tail := 0
  ahead := []
/-- The confirmed checkpoint of a task's entry (R80). -/
def Ckpt.reset : Ckpt :=
  { ser := 0, cyc := 0, ctl := Ctl.reset, rps := [], tl := [], owned := false, releasing := false, snap := true, fos := [] }
/-- Empty queues; every timeline counter 0 (R165). -/
def Queues.reset : Queues where
  nextId := 1
  ldq := []
  gdq := []
  lq := []
  ldKept := []
  gKept := []
  fiKept := []
  dropped := []
  gDropped := []
  stq := []
  fo := []
  fi := []
  fiOut := []
  cmds := []
  colls := []
  flagws := []
  tl := []
  tlOut := []
  deferred := []
  failed := []
  cut := []
/-- Nothing in flight. -/
def Pipe.reset : Pipe where
  ser := 0
  horizon := 0
  infl := []
  undo := []
  held := []
  cks := []
  restart := Ckpt.reset
  fault := none
  wait := []
  waitf := none
  tl0 := []
  clash := []
  lost := []
/-- System registers at the reset values of R104 and R329. -/
def Sys.reset : Sys where
  flg := []
  fresh := []
  fcode := 0
  faddr := 0
  fbundle := 0
  fslot := 0
  fresume := 0
  h := false
  fscr0 := 0
  fscr1 := 0
  watch := []
  bke := false
/-- An unbound context. -/
def Ctx.reset : Ctx where
  bind := none
  ctl := Ctl.reset
  half := none
  idle := none
  fetch := none
  latch := []
  cur := default
  claims := []
  drain := false
  yielding := false
  aside := none
  regs := Regs.reset
  sys := Sys.reset
  pipe := Pipe.reset
  q := Queues.reset
  stopping := 0
  notBefore := 0
  pre := none
  preBank := none
  mchk := none
/-- Every cell register 0 (log entry 1). -/
def Grid.reset : Grid := { acc := [], c0 := [], c1 := [] }
/-- Program, configuration and threshold 0, RUNMAX 0 (log entry 1). -/
def Edge.reset : Edge := { prog := 0, cfg := 0, thr := 0, thrMc := 0, runmax := .fin false 0 0, n := 0 }
/-- An unowned, empty array. -/
def Arr.reset : Arr where
  grid := Grid.reset
  copy := Grid.reset
  edge := Edge.reset
  edgeCopy := Edge.reset
  owner := none
  releasing := false
  items := []
  free := 0
  cross := []
  exits := []
  rest := none
/-- A core held in reset: its cores do not issue until its die's firmware enables it (R25, R330). -/
def Core.reset : Core where
  on := false
  cycle := 0
  ctxs := []
  cur := none
  last := none
  switch := 0
  spad := []
  recent := []
  accm := []
  accOld := []
  busy := []
  landed := []
  errs := []
  tags := []
  tlb := []
  arr := Arr.reset
  charge := []
  lastBlk := none
/-- Watch registers 0 (R383). -/
def MWatch.reset : MWatch := { ctl := 0, ev := 0, agt := 0, adr := 0, val := 0 }
/-- Device registers at the reset values of their field maps. -/
def DevRegs.reset : DevRegs where
  bootlen := 0
  winbase := 0
  hbmtop := 0
  tlbq := []
  mbxreq := 0
  mbxres := 0
  mbxbusy := false
  mbxdone := 0
  elog := []
  elogcnt := 0
  cecnt := 0
  hbmce := 0
  portUp := 0
  portDown := 0
  fwdctl := 0
  unrch := 0
  mw := []
  svcres := 0
  svccmd := 0
  svcbusy := false
  dumped := false
  drained := false
  retired := 0
/-- Memory to which nothing has been written. -/
def Store.reset : Store := { mem := [], plain := [], poison := [], dead := [], soft := [], bad := [], lost := [] }
/-- A die before boot: key slots empty, nothing queued, no content from before reset (R25, R33, R37). -/
def Die.reset : Die where
  boot := .off
  store := Store.reset
  bootwin := []
  regs := DevRegs.reset
  keys := []
  tlb := []
  tlbwait := []
  walks := []
  src := []
  expect := []
  xfers := []
  atomq := []
  hot := []
  colls := []
  seqq := []
  seqOut := none
  mailOut := none
  dealq := []
  roots := []
  rr := []
  elig := []
  due := false
  reserve := 0
  draining := false
  restarting := false
  bypassed := false
  missed := 0
  limit := (1, 1)
  spares := []
  deploy := []
  fw := 0
  imgHash := []
/-- An empty board flash. -/
def Flash.reset : Flash := { device := none, deploy := none, image := none, helper := [], certs := [] }
/-- Host memory and the host's outstanding accesses. -/
def HostSide.reset : HostSide := { mem := [], posted := [], nextTag := 0, queue := [], answers := [] }
/-- The domain right after reset: no die has booted, no region is launched and no context is bound (R25). -/
def State.reset : State where
  cores := []
  dies := []
  flash := []
  regions := []
  owed := []
  host := HostSide.reset
  focus := ⟨0, 0, 0⟩
  sub := 0
  draw := 0
  agenda := []
  todo := []

end Sys2Proof.Machine
end

