-- ==== Sys2Proof/Machine/Tab.lean ====
section
/-! DEFINITION. Tables by number, the canonical byte memory, and byte-order helpers. -/

namespace Sys2Proof.Machine

/-- Entry `n` of a table, or the default. -/
def tget {α : Type} (d : α) : Tab α → Nat → α
  | [], _ => d
  | (k, v) :: t, n => if k = n then v else tget d t n

/-- The table with entry `n` set, kept in rising order. -/
def tset {α : Type} : Tab α → Nat → α → Tab α
  | [], n, x => [(n, x)]
  | (k, v) :: t, n, x => if n < k then (n, x) :: (k, v) :: t else if n = k then (n, x) :: t else (k, v) :: tset t n x

/-- The table with entry `n` changed by `f`. -/
def tmod {α : Type} (d : α) (t : Tab α) (n : Nat) (f : α → α) : Tab α := tset t n (f (tget d t n))

/-- The table without entry `n`. -/
def tdel {α : Type} (t : Tab α) (n : Nat) : Tab α := t.filter (·.1 ≠ n)

/-- Element `n` of a list, or the default. -/
def nth {α : Type} (d : α) : List α → Nat → α
  | [], _ => d
  | x :: _, 0 => x
  | _ :: t, n + 1 => nth d t n

/-- The list with element `n` changed. -/
def modNth {α : Type} : List α → Nat → (α → α) → List α
  | [], _, _ => []
  | x :: t, 0, f => f x :: t
  | x :: t, n + 1, f => x :: modNth t n f

/-! ### Memory (R3, R25, R150): listed bytes in rising order, none equal to what an unlisted byte reads as -/

/-- A byte memory in canonical form. -/
abbrev Memory := List Host.Cell

/-- The byte at an address. -/
def Memory.get : Memory → Nat → Byte
  | [], _ => Config.unwritten
  | (k, v) :: m, a => if k = a then v else Memory.get m a

/-- The memory with the byte at an address written, kept canonical. -/
def Memory.set : Memory → Nat → Byte → Memory
  | [], a, b => if b = Config.unwritten then [] else [(a, b)]
  | (k, v) :: m, a, b =>
    if a < k then (if b = Config.unwritten then (k, v) :: m else (a, b) :: (k, v) :: m)
    else if a = k then (if b = Config.unwritten then m else (a, b) :: m)
    else (k, v) :: Memory.set m a b

/-- Every key of the memory is at least `lo`, keys rise, and no listed byte is the unwritten one. -/
def Memory.wfFrom : Nat → Memory → Bool
  | _, [] => true
  | lo, (k, v) :: m => decide (lo ≤ k) && decide (v ≠ Config.unwritten) && Memory.wfFrom (k + 1) m

/-- The canonical form. -/
def Memory.wf (m : Memory) : Bool := Memory.wfFrom 0 m

/-- The `n` bytes from an address. -/
def Memory.read (m : Memory) (a : Nat) : Nat → List Byte
  | 0 => []
  | n + 1 => m.get a :: Memory.read m (a + 1) n

/-- The memory with bytes written from an address. -/
def Memory.write (m : Memory) (a : Nat) : List Byte → Memory
  | [] => m
  | b :: bs => Memory.write (m.set a b) (a + 1) bs

/-! ### Little-endian values (R5) -/

/-- The value of bytes, least significant first. -/
def leNat : List Byte → Nat
  | [] => 0
  | b :: bs => b.toNat + 256 * leNat bs

/-- The `n` bytes of a value, least significant first. -/
def leBytes : Nat → Nat → List Byte
  | 0, _ => []
  | n + 1, v => BitVec.ofNat 8 v :: leBytes n (v / 256)

/-- Bits [hi:lo] of a number (R7). -/
def bits (x hi lo : Nat) : Nat := x >>> lo % 2 ^ (hi + 1 - lo)

/-- Bit `n` of a number. -/
def bit (x n : Nat) : Bool := x.testBit n

/-- Bits [hi:lo] of a word. -/
def wbits (x : Word) (hi lo : Nat) : Nat := bits x.toNat hi lo

/-- An n-bit field taken as a signed integer (R7 sext). -/
def sextN (x n : Nat) : Int := if x.testBit (n - 1) then (x % 2 ^ n : Int) - 2 ^ n else (x % 2 ^ n : Int)

/-- An integer reduced to n bits. -/
def wrap (x : Int) (n : Nat) : Nat := (x % (2 ^ n : Int)).toNat

/-- Element `i` of width `n` of a register (R98). -/
def lane (x n i : Nat) : Nat := x >>> (n * i) % 2 ^ n

/-- The register with element `i` of width `n` in place of what it held. -/
def setLane (x n i v : Nat) : Nat :=
  let lo := n * i
  (x >>> (lo + n)) <<< (lo + n) ||| (v % 2 ^ n) <<< lo ||| x % 2 ^ lo

/-- The register built of lanes, least significant first. -/
def ofLanes (n : Nat) : List Nat → Nat
  | [] => 0
  | v :: vs => v % 2 ^ n + 2 ^ n * ofLanes n vs

/-- The lanes of a register. -/
def toLanes (x n : Nat) : Nat → List Nat
  | 0 => []
  | k + 1 => x % 2 ^ n :: toLanes (x >>> n) n k

/-- `List.range` from a start. -/
def rangeFrom (a : Nat) (n : Nat) : List Nat := (List.range n).map (a + ·)

end Sys2Proof.Machine
end

