-- ==== Sys2Proof/Machine/Crypto.lean ====
section
/-! DEFINITION. The published algorithms that the manual names: AES-256 (FIPS 197), SHA-384, AES key wrap (RFC 3394), ECDH and ECDSA on P-384
(R26, R32, R33, R196). -/

namespace Sys2Proof.Machine

/-! ### AES-256 (R196, FIPS 197): states and blocks are lists of bytes as numbers -/

/-- The S-box and its inverse, eight bits for each entry. -/
def sboxTab : Nat := 0x16bb54b00f2d99416842e6bf0d89a18cdf2855cee9871e9b948ed9691198f8e19e1dc186b95735610ef6034866b53e708a8bbd4b1f74dde8c6b4a61c2e2578ba08ae7a65eaf4566ca94ed58d6d37c8e779e4959162acd3c25c2406490a3a32e0db0b5ede14b8ee4688902a22dc4f816073195d643d7ea7c41744975fec130ccdd2f3ff1021dab6bcf5389d928f40a351a89f3c507f02f94585334d43fbaaefd0cf584c4a39becb6a5bb1fc20ed00d153842fe329b3d63b52a05a6e1b1a2c830975b227ebe28012079a059618c323c7041531d871f1e5a534ccf73f362693fdb7c072a49cafa2d4adf04759fa7dc982ca76abd7fe2b670130c56f6bf27b777c63
def invSboxTab : Nat := 0x7d0c2155631469e126d677ba7e042b17619953833cbbebc8b0f52aae4d3be0a0ef9cc9939f7ae52d0d4ab519a97f51605fec8027591012b131c7078833a8dd1ff45acd78fec0db9a2079d2c64b3e56fc1bbe18aa0e62b76f89c5291d711af1476edf751ce837f9e28535ade72274ac9673e6b4f0cecff297eadc674f4111913a6b8a130103bdafc1020f3fca8f1e2cd00645b3b80558e4f70ad3bc8c00abd890849d8da75746155edab9edfd5048706c92b6655dcc5ca4d41698688664f6f87225d18b6d49a25b76b224d92866a12e084ec3fa420b954cee3d23c2a632947b54cbe9dec444438e3487ff2f9b8239e37cfbd7f3819ea340bf38a53630d56a0952
def sbox (x : Nat) : Nat := lane sboxTab 8 x
def invSbox (x : Nat) : Nat := lane invSboxTab 8 x
/-- Doubling in the field of AES. -/
def xtime (x : Nat) : Nat := if x < 128 then 2 * x else (2 * x - 256) ^^^ 0x1B
/-- Products by 3, 9, 11, 13 and 14, from doublings. -/
def mulBy (k x : Nat) : Nat :=
  let x2 := xtime x
  let x4 := xtime x2
  let x8 := xtime x4
  (if k.testBit 0 then x else 0) ^^^ (if k.testBit 1 then x2 else 0) ^^^ (if k.testBit 2 then x4 else 0) ^^^ (if k.testBit 3 then x8 else 0)
/-- Two lists of bytes added. -/
def xorBytes (a b : List Nat) : List Nat := (a.zip b).map fun x => x.1 ^^^ x.2
/-- One column times the circulant matrix with first row `r`. -/
def mixColumn (r c : List Nat) : List Nat :=
  (List.range 4).map fun i => ((List.range 4).map fun j => mulBy (nth 0 r ((j + 4 - i) % 4)) (nth 0 c j)).foldl (· ^^^ ·) 0
/-- Every column of a state mixed. -/
def mixColumns (r s : List Nat) : List Nat := (List.range 4).flatMap fun c => mixColumn r ((s.drop (4 * c)).take 4)
/-- Row r of a state rotated by r columns: to the left with d = 1, to the right with d = 3. -/
def shiftRows (d : Nat) (s : List Nat) : List Nat := (List.range 16).map fun i => nth 0 s (4 * ((i / 4 + d * (i % 4)) % 4) + i % 4)

/-- Words of the key schedule: `w` holds those found, newest first; `i` is the next one's number. -/
def expandKey : Nat → Nat → Nat → List (List Nat) → List (List Nat)
  | 0, _, _, w => w.reverse
  | n + 1, i, rc, w =>
    let t := nth [] w 0
    let t :=
      if i % 8 = 0 then
        let r := (t.drop 1 ++ t.take 1).map sbox
        xorBytes r [rc, 0, 0, 0]
      else if i % 8 = 4 then t.map sbox
      else t
    expandKey n (i + 1) (if i % 8 = 0 then xtime rc else rc) (xorBytes (nth [] w 7) t :: w)
/-- The 15 round keys of a 256-bit key, whose first byte is its most significant one. -/
def roundKeys (key : List Nat) : List (List Nat) :=
  let w0 := (List.range 8).map fun i => (key.drop (4 * i)).take 4
  let w := expandKey 52 8 1 w0.reverse
  (List.range 15).map fun r => ((w.drop (4 * r)).take 4).flatten
/-- Rounds 1 to 13 and the last. -/
def cipherRounds : List (List Nat) → List Nat → List Nat
  | [], s => s
  | [k], s => xorBytes (shiftRows 1 (s.map sbox)) k
  | k :: ks, s => cipherRounds ks (xorBytes (mixColumns [2, 3, 1, 1] (shiftRows 1 (s.map sbox))) k)
/-- AES-256 encryption of a 16-byte block. -/
def aesEnc (key block : List Nat) : List Nat :=
  match roundKeys key with
  | k :: ks => cipherRounds ks (xorBytes block k)
  | [] => block
/-- The inverse cipher: round keys from the last to the first. -/
def decipherRounds : List (List Nat) → List Nat → List Nat
  | [], s => s
  | [k], s => xorBytes ((shiftRows 3 s).map invSbox) k
  | k :: ks, s => decipherRounds ks (mixColumns [14, 11, 13, 9] (xorBytes ((shiftRows 3 s).map invSbox) k))
/-- AES-256 decryption of a 16-byte block. -/
def aesDec (key block : List Nat) : List Nat :=
  match (roundKeys key).reverse with
  | k :: ks => decipherRounds ks (xorBytes block k)
  | [] => block

/-- The `n` bytes of a number, most significant first, and the number of such bytes. -/
def beNats (n x : Nat) : List Nat := (List.range n).map fun i => x / 256 ^ (n - 1 - i) % 256
def beValue (l : List Nat) : Nat := l.foldl (fun a x => 256 * a + x) 0
/-- A generator block of R196: AES-256 of the counter, as 128-bit integers. -/
def cipherBlock (key : BitVec 256) (ctr : BitVec 128) : BitVec 128 := BitVec.ofNat 128 (beValue (aesEnc (beNats 32 key.toNat) (beNats 16 ctr.toNat)))

/-! ### AES key wrap (R33, RFC 3394) -/

/-- One unwrapping step: the register A and the blocks, numbers of 64 bits, with step number `t`. -/
def unwrapStep (key : List Nat) (n t : Nat) (s : Nat × List Nat) : Nat × List Nat :=
  let i := (t - 1) % n
  let b := aesDec key (beNats 8 (s.1 ^^^ t) ++ beNats 8 (nth 0 s.2 i))
  (beValue (b.take 8), modNth s.2 i fun _ => beValue (b.drop 8))
/-- The key that 40 wrapped bytes hold, if their check value is right. -/
def unwrapKey (kek wrapped : List Nat) : Option (BitVec 256) :=
  let w (i : Nat) : Nat := beValue ((wrapped.drop (8 * i)).take 8)
  let r := (List.range 24).foldl (fun s k => unwrapStep kek 4 (24 - k) s) (w 0, [w 1, w 2, w 3, w 4])
  if r.1 = 0xA6A6A6A6A6A6A6A6 then some (BitVec.ofNat 256 (r.2.foldl (fun a x => a * 2 ^ 64 + x) 0)) else none

/-! ### SHA-384 (R26, R32, R33) -/

/-- The round constants and the initial hash value, 64 bits each, lowest first. -/
def shaKTab : Nat :=
  0x6c44198c4a4758175fcb6fab3ad6faec597f299cfc657e2a4cc5d4becb3e42b6431d67c49c100d4c3c9ebe0a15c9bebc32caab7b40c7249328db77f523047d841b710b35131c471b113f9804bef90dae0a637dc5a2c898a606f067aa72176fbaf57d4f7fee6ed178eada7dd6cde0eb1ed186b8c721c0c207ca273eceea26619cc67178f2e372532bbef9a3f7b2c67915a4506cebde82bde990befffa23631e288cc702081a6439ec84c87814a1f0ab7278a5636f43172f60748f82ee5defb2fc682e6ff3d6b2b8a35b9cca4f7763e3734ed8aa4ae3418acb391c0cb3c5c95a6334b0bcb5e19b48a82748774cdf8eeb991e376c085141ab5319a4c116b8d2d0c8106aa07032bbd1b8f40e35855771202ad69906245565a910d192e819d6ef5218c76c51a30654be30c24b8b70d0f89791a81a664bbc423001a2bfe8a14cf1036492722c851482353b81c2c92e47edaee6766a0abb3c77b2a8650a73548baf63de53380d139d95b3df4d2c6dfc5ac42aed2e1b21385c26c92627b70a8546d22ffc142929670a0e6e7006ca6351e003826fd5a79147930aa725c6e00bf33da88fc2bf597fc7beef0ee4b00327c898fb213fa831c66d2db43210983e5152ee66dfab76f988da831153b55cb0a9dcbd41fbd44a7484aa6ea6e4832de92c6f592b0275240ca1cc77ac9c650fc19dc68b8cd5b5efbe4786384f25e3e49b69c19ef14ad2c19bf174cf6926949bdc06a725c7123580deb1fe3b1696b172be5d74f27b896f550c7dc3d5ffb4e2243185be4ee4b28c12835b0145706fbed807aa98a3030242ab1c5ed5da6d8118923f82a4af194f9b59f111f1b605d0193956c25bf348b538e9b5dba58189dbbcb5c0fbcfec4d3b2f7137449123ef65cd428a2f98d728ae22
def shaHTab : Nat := 0x47b5481dbefa4fa4db0c2e0d64f98fa78eb44a876858151167332667ffc00b31152fecd8f70e59399159015a3070dd17629a292a367cd507cbbb9d5dc1059ed8
def rotr64 (x n : Nat) : Nat := (x >>> n ||| x <<< (64 - n)) % 2 ^ 64
/-- The message schedule, newest word first. -/
def shaSchedule : Nat → List Nat → List Nat
  | 0, w => w
  | n + 1, w =>
    let a := nth 0 w 1
    let b := nth 0 w 14
    let s1 := rotr64 a 19 ^^^ rotr64 a 61 ^^^ a >>> 6
    let s0 := rotr64 b 1 ^^^ rotr64 b 8 ^^^ b >>> 7
    shaSchedule n ((s1 + nth 0 w 6 + s0 + nth 0 w 15) % 2 ^ 64 :: w)
/-- One round on the eight working words. -/
def shaRound (v : List Nat) (k w : Nat) : List Nat :=
  match v with
  | [a, b, c, d, e, f, g, h] =>
    let s1 := rotr64 e 14 ^^^ rotr64 e 18 ^^^ rotr64 e 41
    let ch := (e &&& f) ^^^ ((2 ^ 64 - 1 - e) &&& g)
    let t1 := h + s1 + ch + k + w
    let s0 := rotr64 a 28 ^^^ rotr64 a 34 ^^^ rotr64 a 39
    let mj := (a &&& b) ^^^ (a &&& c) ^^^ (b &&& c)
    [(t1 + s0 + mj) % 2 ^ 64, a, b, c, (d + t1) % 2 ^ 64, e, f, g]
  | v => v
/-- One block of 128 bytes. -/
def shaBlock (h b : List Nat) : List Nat :=
  let w0 := (List.range 16).map fun i => beValue ((b.drop (8 * i)).take 8)
  let w := (shaSchedule 64 w0.reverse).reverse
  let v := w.zipIdx.foldl (fun v x => shaRound v (lane shaKTab 64 x.2) x.1) h
  (h.zip v).map fun x => (x.1 + x.2) % 2 ^ 64
/-- The blocks of a padded message. -/
def shaBlocks : Nat → List Nat → List Nat → List Nat
  | 0, h, _ => h
  | n + 1, h, m => shaBlocks n (shaBlock h (m.take 128)) (m.drop 128)
/-- SHA-384 of bytes: 48 bytes. -/
def sha384 (m : List Byte) : List Byte :=
  let l := m.map (·.toNat)
  let pad := (239 - l.length % 128) % 128
  let p := l ++ 0x80 :: List.replicate pad 0 ++ beNats 16 (8 * l.length)
  let h := shaBlocks (p.length / 128) (toLanes shaHTab 64 8) p
  ((h.take 6).flatMap (beNats 8)).map (BitVec.ofNat 8)
/-- A hash as an integer, its first byte the most significant. -/
def bytesBe (l : List Byte) : Nat := beValue (l.map (·.toNat))
/-- The `n` bytes of an integer, most significant first. -/
def beBytes (n x : Nat) : List Byte := (beNats n x).map (BitVec.ofNat 8)

/-! ### P-384 (R26, R31 to R33) -/

def p384 : Nat := 2 ^ 384 - 2 ^ 128 - 2 ^ 96 + 2 ^ 32 - 1
def n384 : Nat := 0xffffffffffffffffffffffffffffffffffffffffffffffffc7634d81f4372ddf581a0db248b0a77aecec196accc52973
def b384 : Nat := 0xb3312fa7e23ee7e4988e056be3f82d19181d9c6efe8141120314088f5013875ac656398d8a2ed19d2a85c8edd3ec2aef
def g384 : Nat × Nat :=
  (0xaa87ca22be8b05378eb1c71ef320ad746e1d3b628ba79b9859f741e082542a385502f25dbf55296c3a545e3872760ab7,
   0x3617de4a96262c6f5d9e98bf9292dc29f8f41dbd289a147ce9da3113b5f0b8c00a60b1ce1d7e819d7a431d7c90ea0e5f)
/-- Powers modulo m by the bits of the exponent, most significant first: `n` bits are left. -/
def powMod (m b e : Nat) : Nat → Nat → Nat
  | 0, a => a
  | n + 1, a => powMod m b e n (a * a % m * (if e.testBit n then b else 1) % m)
/-- The inverse modulo a prime of 384 bits. -/
def invMod (m x : Nat) : Nat := powMod m (x % m) (m - 2) 384 1
/-- Points of the curve; none is the point at infinity. -/
abbrev Pt := Option (Nat × Nat)
def subMod (m a b : Nat) : Nat := (a + m - b % m) % m
/-- The point on the line of slope l through two points. -/
def chord (l x1 y1 x2 : Nat) : Pt :=
  let x := subMod p384 (l * l) (x1 + x2)
  some (x, subMod p384 (l * subMod p384 x1 x) y1)
def ptAdd (a b : Pt) : Pt :=
  match a, b with
  | none, b => b
  | a, none => a
  | some (x1, y1), some (x2, y2) =>
    if x1 = x2 then
      if (y1 + y2) % p384 = 0 then none
      else chord ((3 * x1 * x1 + (p384 - 3)) % p384 * invMod p384 (2 * y1) % p384) x1 y1 x2
    else chord (subMod p384 y2 y1 * invMod p384 (subMod p384 x2 x1) % p384) x1 y1 x2
/-- A multiple of a point by the bits of the scalar. -/
def ptMul (e : Nat) (q : Pt) : Nat → Pt → Pt
  | 0, a => a
  | n + 1, a =>
    let d := ptAdd a a
    ptMul e q n (if e.testBit n then ptAdd d q else d)
def ptTimes (e : Nat) (q : Pt) : Pt := ptMul e q 384 none
/-- An uncompressed public key of 97 bytes, if it is a point of the curve. -/
def ptOf (k : List Byte) : Pt :=
  let l := k.map (·.toNat)
  let x := beValue ((l.drop 1).take 48)
  let y := beValue ((l.drop 49).take 48)
  if l.length = 97 ∧ nth 0 l 0 = 4 ∧ x < p384 ∧ y < p384 ∧ y * y % p384 = (x * x * x + (p384 - 3) * x + b384) % p384 then some (x, y) else none
/-- ECDSA verification of a signature over a message. -/
def ecdsaOk (key m : List Byte) (r s : Nat) : Bool :=
  match ptOf key with
  | none => false
  | some q =>
    let w := invMod n384 s
    let z := bytesBe (sha384 m)
    decide (0 < r) && decide (r < n384) && decide (0 < s) && decide (s < n384) &&
    match ptAdd (ptTimes (z * w % n384) (some g384)) (ptTimes (r * w % n384) (some q)) with
    | some (x, _) => x % n384 == r
    | none => false
/-- An ECDSA signature over a message under a private key, with the one-time number k. -/
def ecdsaSign (d k : Nat) (m : List Byte) : Nat × Nat :=
  let r := match ptTimes k (some g384) with | some (x, _) => x % n384 | none => 0
  (r, invMod n384 k * (bytesBe (sha384 m) + r * d) % n384)
/-- The shared x-coordinate of ECDH: 48 bytes. -/
def ecdh (d : Nat) (key : List Byte) : Option (List Byte) :=
  match ptOf key with
  | some q => (ptTimes d (some q)).map fun x => beBytes 48 x.1
  | none => none

end Sys2Proof.Machine
end

