-- ==== Sys2Proof/WellFormed.lean ====
section
/-! DEFINITION. Well-formedness: the checks that answer 0x0102 (R207, R208, R371), the class, the feature bit and the events' places. -/

namespace Sys2Proof

/-- `n` consecutive s registers from `a` end at most at s63 (R208). -/
def runs (a : BitVec 6) (n : Nat) : Bool := a.toNat + n ≤ 64

/-- A field that names a pair names an even register (R208). -/
def even (a : BitVec 6) : Bool := a.toNat % 2 == 0

/-- The operation and type codes form a pair of R170 (R216). -/
def atomicPair (o t : BitVec 3) : Bool :=
  match o.toNat with
  | 0 => t == 0 || t == 1 || t == 4
  | 1 => t.toNat ≤ 4
  | 2 => t.toNat ≤ 4
  | 3 => t == 2 || t == 3
  | 4 => t == 2 || t == 3
  | 5 => t == 2 || t == 3
  | _ => t.toNat ≤ 4

/-- A counter code of R216 with its context field (R308). -/
def counterOk (c : BitVec 3) (o : BitVec 1) (x : BitVec 2) : Bool := c.toNat ≤ 4 && (o == 0 || x == 0)

/-- The system-register numbers of R329. -/
def sysListed (n : Nat) : Bool :=
  n ≤ 4 || (0x10 ≤ n && n ≤ 0x13) || (0x20 ≤ n && n ≤ 0x23) || (0x30 ≤ n && n ≤ 0x37) || (0x40 ≤ n && n ≤ 0x43) || n == 0x48

/-- The system registers that SYSWR may write (R328, R329). -/
def sysWritable (n : Nat) : Bool :=
  (0x20 ≤ n && n ≤ 0x23) || n == 0x36 || n == 0x37 || (0x40 ≤ n && n ≤ 0x43) || n == 0x48

/-- A die of the domain (R11, R12): packages 0 to 15, dies 0 to 9. -/
def dieOk (p d : Nat) : Bool := p < 16 && d < 10

/-- A core of the domain: 20 cores on each compute die (R14, R15). -/
def locOk (l : Loc) : Bool := l.pkg < 16 && l.die < 8 && l.core < 20

/-- No field of the instruction holds a code or register number that the manual reserves; an event has no reserved field. -/
def Instr.wf : Instr → Bool
  | .nop _ => true
  | .add _ _ _ _ _ => true
  | .sub _ _ _ _ _ => true
  | .mul _ _ _ _ _ => true
  | .mulh _ _ _ _ _ => true
  | .mulhu _ _ _ _ _ => true
  | .divs _ _ _ _ _ => true
  | .divu _ _ _ _ _ => true
  | .rems _ _ _ _ _ => true
  | .remu _ _ _ _ _ => true
  | .and _ _ _ _ _ => true
  | .or _ _ _ _ _ => true
  | .xor _ _ _ _ _ => true
  | .andn _ _ _ _ _ => true
  | .shl _ _ _ _ _ => true
  | .shr _ _ _ _ _ => true
  | .sar _ _ _ _ _ => true
  | .rot _ _ _ _ _ => true
  | .min _ _ _ _ _ => true
  | .max _ _ _ _ _ => true
  | .minu _ _ _ _ _ => true
  | .maxu _ _ _ _ _ => true
  | .clz _ _ _ _ => true
  | .popc _ _ _ _ => true
  | .sext _ _ _ _ _ => true
  | .zext _ _ _ _ _ => true
  | .sel _ _ _ _ _ => true
  | .cmp _ _ k _ _ _ => k != 0
  | .plog _ _ k _ _ _ => k != 0
  | .addi _ _ _ _ => true
  | .li _ _ _ _ => true
  | .lih _ _ _ _ => true
  | .fadd _ _ _ _ _ => true
  | .fmul _ _ _ _ _ => true
  | .ffma _ _ _ _ _ => true
  | .fcvt _ _ _ _ => true
  | .fcmp _ _ k _ _ _ => k != 0
  | .br _ _ _ _ _ => true
  | .brk _ _ _ _ _ => true
  | .call _ _ _ _ _ => true
  | .ret _ _ _ _ => true
  | .seg _ _ _ _ k r => k != 3 && (k == 2 || r == 0)
  | .lpset _ l _ _ => l.toNat ≤ 5
  | .lpstrd _ l _ a _ => l.toNat ≤ 5 && a != 63
  | .lpmod _ _ _ => true
  | .lpmask _ _ => true
  | .lpgo _ d => d != 0 && d != 7
  | .lpbrk _ _ _ _ _ => true
  | .lpidx _ _ _ l => l.toNat ≤ 5
  | .ckpt _ => true
  | .yield _ => true
  | .taskend _ => true
  | .vmov h _ _ => h.w != 3
  | .vadd _ _ _ _ => true
  | .vsub _ _ _ _ => true
  | .vmul _ _ _ _ => true
  | .vfma _ _ _ _ => true
  | .vfms _ _ _ _ => true
  | .vmin _ _ _ _ => true
  | .vmax _ _ _ _ => true
  | .vabs h _ _ => h.w != 3
  | .vneg h _ _ => h.w != 3
  | .vand _ _ _ _ => true
  | .vor _ _ _ _ => true
  | .vxor _ _ _ _ => true
  | .vandn _ _ _ _ => true
  | .vshl _ _ _ _ => true
  | .vshr _ _ _ _ => true
  | .vsar _ _ _ _ => true
  | .vcmpeq _ k _ _ => k != 0
  | .vcmplt _ k _ _ => k != 0
  | .vcmple _ k _ _ => k != 0
  | .vcmpltu _ k _ _ => k != 0
  | .vcmpleu _ k _ _ => k != 0
  | .vcvt h _ _ f => h.w != 3 && f != 15
  | .vqdx h _ _ f => h.w != 3 && (f == 5 || f == 6)
  | .vpermb h _ _ _ => h.w != 3
  | .vshuf h _ _ _ => h.w != 3
  | .vbcast h _ a _ => h.w != 3 || a == 0
  | .vexts _ _ _ _ => true
  | .vins h _ _ _ => h.w == 3
  | .viota h _ => h.w != 3
  | .vrsum h _ _ _ => h.w != 3
  | .vrmin h _ _ _ => h.w != 3
  | .vrmax h _ _ _ => h.w != 3
  | .vscan h _ _ o _ => h.w != 3 && o != 3
  | .vexp2 h _ _ => h.w != 3
  | .vlog2 h _ _ => h.w != 3
  | .vrcp h _ _ => h.w != 3
  | .vrsq h _ _ => h.w != 3
  | .vsqrt h _ _ => h.w != 3
  | .vld h _ _ _ _ => h.w != 3
  | .vst h _ _ _ _ => h.w != 3
  | .vlda h _ _ _ => h.w != 3
  | .vsta h _ _ _ => h.w != 3
  | .vldc h _ _ _ _ => h.w != 3
  | .vstc h _ _ _ _ => h.w != 3
  | .vcopy h _ _ => h.w != 3
  | .vany h p _ => h.w != 3 && p != 0
  | .vall h p _ => h.w != 3 && p != 0
  | .vkop h _ m _ _ => h.w != 3 && m != 0
  | .vkpop h _ _ => h.w != 3
  | .vunpk h _ _ _ f => h.w != 3 && 9 ≤ f.toNat && f.toNat ≤ 13
  | .vpack h _ _ _ f => h.w != 3 && 9 ≤ f.toNat && f.toNat ≤ 13
  | .vmulh _ _ _ _ => true
  | .vpopc h _ _ => h.w != 3
  | .vsel _ _ _ _ _ => true
  | .mclr _ => true
  | .mpush _ _ _ _ l k _ => l != 6 && k != 6
  | .mpushz _ _ _ _ l k _ => l != 6 && k != 6
  | .mshift _ _ t => t != 3
  | .mdrain _ _ => true
  | .mscout _ _ i => i != 6
  | .mcell _ _ => true
  | .mcfg _ _ => true
  | .mthr _ _ => true
  | .tmop _ _ _ _ _ => true
  | .mrel _ => true
  | .lds _ _ _ _ _ => true
  | .sts _ _ _ _ _ => true
  | .ldg _ _ _ => true
  | .ldga _ _ _ => true
  | .lpop _ f _ => f != 3
  | .stg _ n c _ _ => 3 < n.toNat || c == 0
  | .stgr _ n c p _ _ => (3 < n.toNat || c == 0) && p != 7
  | .gpush _ _ _ _ => true
  | .gpop _ _ _ => true
  | .scat _ _ _ _ _ => true
  | .qdrop _ _ n => n.toNat ≤ 64
  | .qcnt _ _ _ => true
  | .tlook _ _ _ => true
  | .tset _ _ _ _ => true
  | .tclr _ _ _ => true
  | .fwr _ _ k r c => k == 1 || (even r && c == 0)
  | .frd _ _ k r c => k == 1 || (even r && c == 0)
  | .fcnt _ _ _ => true
  | .cpy _ a => runs a 3
  | .cpyt _ a => runs a 6
  | .cpym _ _ a => runs a 5
  | .cpyc _ _ a => runs a 4
  | .cbset _ _ a => runs a 3
  | .cbadvR _ _ n => 1 ≤ n.toNat && n.toNat ≤ 256
  | .cbadvW _ _ n => 1 ≤ n.toNat && n.toNat ≤ 256
  | .cbwait _ _ n => 1 ≤ n.toNat && n.toNat ≤ 256
  | .tlrd _ c o x _ => counterOk c o x
  | .tlwait _ c o x _ _ => counterOk c o x
  | .tllag _ c o x _ _ => counterOk c o x
  | .qmark _ => true
  | .fence _ p => p != 7
  | .atom _ o t a => atomicPair o t && runs a (if o == 7 then 3 else 2)
  | .atomr _ o t a _ => atomicPair o t && runs a (if o == 7 then 3 else 2)
  | .atomx _ o t a _ => 6 ≤ o.toNat && atomicPair o t && runs a (if o == 7 then 3 else 2)
  | .deal _ d => even d
  | .gbar _ => true
  | .coll _ _ => true
  | .waitf _ k a => k != 0 && runs a 3
  | .flagw _ _ p a => p != 7 && runs a 2
  | .hclr _ _ => true
  | .smerge _ _ _ _ _ _ => true
  | .hrd _ _ _ f _ _ => f != 3
  | .hwr _ _ _ _ _ => true
  | .ssort _ _ _ _ _ => true
  | .spick _ _ _ _ => true
  | .srnd _ _ d => even d
  | .sradd _ _ a => even a
  | .srld _ _ _ => true
  | .srst _ _ _ => true
  | .suni _ _ _ => true
  | .sacc _ k a => k != 0 && runs a 3
  | .sqfork _ c a _ => c.toNat ≤ 15 && runs a 2
  | .sqapp _ c a _ => c.toNat ≤ 16 && runs a 3
  | .sqcommit _ c a _ => c.toNat ≤ 15 && runs a 3
  | .sqtrunc _ a _ => runs a 2
  | .sqcur _ a _ => runs a 2
  | .sqframe _ _ _ => true
  | .fmtw _ _ => true
  | .fmtr _ _ => true
  | .sysrd _ _ n => sysListed n.toNat
  | .syswr _ _ n => sysWritable n.toNat
  | .isaq _ _ sl => sl.toNat ≤ 4
  | .cyc _ _ => true
  | .trap _ _ => true
  | .eret _ => true
  | .watch _ _ a => runs a 2
  | .bkpt _ _ => true
  | .powerOn => true
  | .resetAssert => true
  | .bootImageFetch => true
  | .bootImageTimeout => true
  | .quote => true
  | .loadKeySlot => true
  | .clearKeySlot => true
  | .launch _ => true
  | .suspend _ => true
  | .resume _ => true
  | .tlbinv _ => true
  | .tlbInvalidationComplete => true
  | .retireCore _ => true
  | .coreRetired _ => true
  | .restoreCore _ => true
  | .drainDie _ => true
  | .dieDrained => true
  | .undrainDie _ => true
  | .bypassDie _ => true
  | .updateFirmware _ => true
  | .dump _ => true
  | .clearForeignDumpSlot _ => true
  | .fatalDump _ => true
  | .deviceRegisterWrite _ _ => true
  | .hostRead _ _ _ => true
  | .hostWrite _ _ _ => true
  | .hostCompletion _ => true
  | .loadreq _ _ => true
  | .loadresp _ => true
  | .store _ _ => true
  | .storelast _ _ => true
  | .atomic _ _ => true
  | .atomicEngineApply _ => true
  | .atomresp _ => true
  | .collPacket _ _ => true
  | .redirect _ => true
  | .nack _ => true
  | .ack _ => true
  | .undefinedPacket _ => true
  | .retryBackoffExpiry _ _ _ => true
  | .requestTimeout _ _ _ => true
  | .heartbeatTimeout => true
  | .cxlPortDown _ => true
  | .cxlPortUp _ => true
  | .powerLimitReport _ _ => true
  | .pageWalkComplete _ _ => true
  | .pageMove _ _ _ => true
  | .spareRowRepair _ => true
  | .resultLanding => true
  | .checkpointConfirm => true
  | .storeQueueSend => true
  | .contextSwitch => true
  | .faultReport => true
  | .regionFaultNotify _ => true
  | .moduloKernelCycle => true
  | .segmentPrefetchComplete => true
  | .arrayItemEntry => true
  | .beatSettle => true
  | .edgeRowLanding => true
  | .drainLanding => true
  | .arrayOwnershipEnd => true
  | .bindCoreGroup => true
  | .overlaySwap => true
  | .preload _ => true
  | .contextSave => true
  | .contextRestore _ => true
  | .regionComplete _ => true
  | .dealerRequest => true
  | .gangBarrierComplete _ => true
  | .sequenceUnitOperation => true
  | .copyCommandStart => true
  | .cpycSlotFill _ => true
  | .cbsetTakesEffect _ => true
  | .copyComplete _ => true
  | .gatherEntryWhole _ => true
  | .flagwFlagWrite => true
  | .collEngineStart _ => true
  | .cipherBlockReady _ => true
  | .waitfReload => true
  | .waitfDeadline => true
  | .cycleChargeReport => true
  | .segmentFetchComplete => true
  | .heartbeat => true

/-- The class of a slot in R58's order: C 0, V0 1, V1 2, M 3, X 4, D 5, S 6, E 7; an event has none (8). -/
def Instr.cls : Instr → Nat
  | .nop _ => 0
  | .add _ _ _ _ _ => 0
  | .sub _ _ _ _ _ => 0
  | .mul _ _ _ _ _ => 0
  | .mulh _ _ _ _ _ => 0
  | .mulhu _ _ _ _ _ => 0
  | .divs _ _ _ _ _ => 0
  | .divu _ _ _ _ _ => 0
  | .rems _ _ _ _ _ => 0
  | .remu _ _ _ _ _ => 0
  | .and _ _ _ _ _ => 0
  | .or _ _ _ _ _ => 0
  | .xor _ _ _ _ _ => 0
  | .andn _ _ _ _ _ => 0
  | .shl _ _ _ _ _ => 0
  | .shr _ _ _ _ _ => 0
  | .sar _ _ _ _ _ => 0
  | .rot _ _ _ _ _ => 0
  | .min _ _ _ _ _ => 0
  | .max _ _ _ _ _ => 0
  | .minu _ _ _ _ _ => 0
  | .maxu _ _ _ _ _ => 0
  | .clz _ _ _ _ => 0
  | .popc _ _ _ _ => 0
  | .sext _ _ _ _ _ => 0
  | .zext _ _ _ _ _ => 0
  | .sel _ _ _ _ _ => 0
  | .cmp _ _ _ _ _ _ => 0
  | .plog _ _ _ _ _ _ => 0
  | .addi _ _ _ _ => 0
  | .li _ _ _ _ => 0
  | .lih _ _ _ _ => 0
  | .fadd _ _ _ _ _ => 0
  | .fmul _ _ _ _ _ => 0
  | .ffma _ _ _ _ _ => 0
  | .fcvt _ _ _ _ => 0
  | .fcmp _ _ _ _ _ _ => 0
  | .br _ _ _ _ _ => 0
  | .brk _ _ _ _ _ => 0
  | .call _ _ _ _ _ => 0
  | .ret _ _ _ _ => 0
  | .seg _ _ _ _ _ _ => 0
  | .lpset _ _ _ _ => 0
  | .lpstrd _ _ _ _ _ => 0
  | .lpmod _ _ _ => 0
  | .lpmask _ _ => 0
  | .lpgo _ _ => 0
  | .lpbrk _ _ _ _ _ => 0
  | .lpidx _ _ _ _ => 0
  | .ckpt _ => 0
  | .yield _ => 0
  | .taskend _ => 0
  | .vmov h _ _ => if h.cl then 2 else 1
  | .vadd h _ _ _ => if h.cl then 2 else 1
  | .vsub h _ _ _ => if h.cl then 2 else 1
  | .vmul h _ _ _ => if h.cl then 2 else 1
  | .vfma h _ _ _ => if h.cl then 2 else 1
  | .vfms h _ _ _ => if h.cl then 2 else 1
  | .vmin h _ _ _ => if h.cl then 2 else 1
  | .vmax h _ _ _ => if h.cl then 2 else 1
  | .vabs h _ _ => if h.cl then 2 else 1
  | .vneg h _ _ => if h.cl then 2 else 1
  | .vand h _ _ _ => if h.cl then 2 else 1
  | .vor h _ _ _ => if h.cl then 2 else 1
  | .vxor h _ _ _ => if h.cl then 2 else 1
  | .vandn h _ _ _ => if h.cl then 2 else 1
  | .vshl h _ _ _ => if h.cl then 2 else 1
  | .vshr h _ _ _ => if h.cl then 2 else 1
  | .vsar h _ _ _ => if h.cl then 2 else 1
  | .vcmpeq h _ _ _ => if h.cl then 2 else 1
  | .vcmplt h _ _ _ => if h.cl then 2 else 1
  | .vcmple h _ _ _ => if h.cl then 2 else 1
  | .vcmpltu h _ _ _ => if h.cl then 2 else 1
  | .vcmpleu h _ _ _ => if h.cl then 2 else 1
  | .vcvt h _ _ _ => if h.cl then 2 else 1
  | .vqdx h _ _ _ => if h.cl then 2 else 1
  | .vpermb h _ _ _ => if h.cl then 2 else 1
  | .vshuf h _ _ _ => if h.cl then 2 else 1
  | .vbcast h _ _ _ => if h.cl then 2 else 1
  | .vexts h _ _ _ => if h.cl then 2 else 1
  | .vins h _ _ _ => if h.cl then 2 else 1
  | .viota h _ => if h.cl then 2 else 1
  | .vrsum h _ _ _ => if h.cl then 2 else 1
  | .vrmin h _ _ _ => if h.cl then 2 else 1
  | .vrmax h _ _ _ => if h.cl then 2 else 1
  | .vscan h _ _ _ _ => if h.cl then 2 else 1
  | .vexp2 h _ _ => if h.cl then 2 else 1
  | .vlog2 h _ _ => if h.cl then 2 else 1
  | .vrcp h _ _ => if h.cl then 2 else 1
  | .vrsq h _ _ => if h.cl then 2 else 1
  | .vsqrt h _ _ => if h.cl then 2 else 1
  | .vld h _ _ _ _ => if h.cl then 2 else 1
  | .vst h _ _ _ _ => if h.cl then 2 else 1
  | .vlda h _ _ _ => if h.cl then 2 else 1
  | .vsta h _ _ _ => if h.cl then 2 else 1
  | .vldc h _ _ _ _ => if h.cl then 2 else 1
  | .vstc h _ _ _ _ => if h.cl then 2 else 1
  | .vcopy h _ _ => if h.cl then 2 else 1
  | .vany h _ _ => if h.cl then 2 else 1
  | .vall h _ _ => if h.cl then 2 else 1
  | .vkop h _ _ _ _ => if h.cl then 2 else 1
  | .vkpop h _ _ => if h.cl then 2 else 1
  | .vunpk h _ _ _ _ => if h.cl then 2 else 1
  | .vpack h _ _ _ _ => if h.cl then 2 else 1
  | .vmulh h _ _ _ => if h.cl then 2 else 1
  | .vpopc h _ _ => if h.cl then 2 else 1
  | .vsel h _ _ _ _ => if h.cl then 2 else 1
  | .mclr _ => 3
  | .mpush _ _ _ _ _ _ _ => 3
  | .mpushz _ _ _ _ _ _ _ => 3
  | .mshift _ _ _ => 3
  | .mdrain _ _ => 3
  | .mscout _ _ _ => 3
  | .mcell _ _ => 3
  | .mcfg _ _ => 3
  | .mthr _ _ => 3
  | .tmop _ _ _ _ _ => 3
  | .mrel _ => 3
  | .lds _ _ _ _ _ => 4
  | .sts _ _ _ _ _ => 4
  | .ldg _ _ _ => 4
  | .ldga _ _ _ => 4
  | .lpop _ _ _ => 4
  | .stg _ _ _ _ _ => 4
  | .stgr _ _ _ _ _ _ => 4
  | .gpush _ _ _ _ => 4
  | .gpop _ _ _ => 4
  | .scat _ _ _ _ _ => 4
  | .qdrop _ _ _ => 4
  | .qcnt _ _ _ => 4
  | .tlook _ _ _ => 4
  | .tset _ _ _ _ => 4
  | .tclr _ _ _ => 4
  | .fwr _ _ _ _ _ => 4
  | .frd _ _ _ _ _ => 4
  | .fcnt _ _ _ => 4
  | .cpy _ _ => 5
  | .cpyt _ _ => 5
  | .cpym _ _ _ => 5
  | .cpyc _ _ _ => 5
  | .cbset _ _ _ => 5
  | .cbadvR _ _ _ => 5
  | .cbadvW _ _ _ => 5
  | .cbwait _ _ _ => 5
  | .tlrd _ _ _ _ _ => 5
  | .tlwait _ _ _ _ _ _ => 5
  | .tllag _ _ _ _ _ _ => 5
  | .qmark _ => 5
  | .fence _ _ => 5
  | .atom _ _ _ _ => 5
  | .atomr _ _ _ _ _ => 5
  | .atomx _ _ _ _ _ => 5
  | .deal _ _ => 5
  | .gbar _ => 5
  | .coll _ _ => 5
  | .waitf _ _ _ => 5
  | .flagw _ _ _ _ => 5
  | .hclr _ _ => 6
  | .smerge _ _ _ _ _ _ => 6
  | .hrd _ _ _ _ _ _ => 6
  | .hwr _ _ _ _ _ => 6
  | .ssort _ _ _ _ _ => 6
  | .spick _ _ _ _ => 6
  | .srnd _ _ _ => 6
  | .sradd _ _ _ => 6
  | .srld _ _ _ => 6
  | .srst _ _ _ => 6
  | .suni _ _ _ => 6
  | .sacc _ _ _ => 6
  | .sqfork _ _ _ _ => 6
  | .sqapp _ _ _ _ => 6
  | .sqcommit _ _ _ _ => 6
  | .sqtrunc _ _ _ => 6
  | .sqcur _ _ _ => 6
  | .sqframe _ _ _ => 6
  | .fmtw _ _ => 7
  | .fmtr _ _ => 7
  | .sysrd _ _ _ => 7
  | .syswr _ _ _ => 7
  | .isaq _ _ _ => 7
  | .cyc _ _ => 7
  | .trap _ _ => 7
  | .eret _ => 7
  | .watch _ _ _ => 7
  | .bkpt _ _ => 7
  | .powerOn => 8
  | .resetAssert => 8
  | .bootImageFetch => 8
  | .bootImageTimeout => 8
  | .quote => 8
  | .loadKeySlot => 8
  | .clearKeySlot => 8
  | .launch _ => 8
  | .suspend _ => 8
  | .resume _ => 8
  | .tlbinv _ => 8
  | .tlbInvalidationComplete => 8
  | .retireCore _ => 8
  | .coreRetired _ => 8
  | .restoreCore _ => 8
  | .drainDie _ => 8
  | .dieDrained => 8
  | .undrainDie _ => 8
  | .bypassDie _ => 8
  | .updateFirmware _ => 8
  | .dump _ => 8
  | .clearForeignDumpSlot _ => 8
  | .fatalDump _ => 8
  | .deviceRegisterWrite _ _ => 8
  | .hostRead _ _ _ => 8
  | .hostWrite _ _ _ => 8
  | .hostCompletion _ => 8
  | .loadreq _ _ => 8
  | .loadresp _ => 8
  | .store _ _ => 8
  | .storelast _ _ => 8
  | .atomic _ _ => 8
  | .atomicEngineApply _ => 8
  | .atomresp _ => 8
  | .collPacket _ _ => 8
  | .redirect _ => 8
  | .nack _ => 8
  | .ack _ => 8
  | .undefinedPacket _ => 8
  | .retryBackoffExpiry _ _ _ => 8
  | .requestTimeout _ _ _ => 8
  | .heartbeatTimeout => 8
  | .cxlPortDown _ => 8
  | .cxlPortUp _ => 8
  | .powerLimitReport _ _ => 8
  | .pageWalkComplete _ _ => 8
  | .pageMove _ _ _ => 8
  | .spareRowRepair _ => 8
  | .resultLanding => 8
  | .checkpointConfirm => 8
  | .storeQueueSend => 8
  | .contextSwitch => 8
  | .faultReport => 8
  | .regionFaultNotify _ => 8
  | .moduloKernelCycle => 8
  | .segmentPrefetchComplete => 8
  | .arrayItemEntry => 8
  | .beatSettle => 8
  | .edgeRowLanding => 8
  | .drainLanding => 8
  | .arrayOwnershipEnd => 8
  | .bindCoreGroup => 8
  | .overlaySwap => 8
  | .preload _ => 8
  | .contextSave => 8
  | .contextRestore _ => 8
  | .regionComplete _ => 8
  | .dealerRequest => 8
  | .gangBarrierComplete _ => 8
  | .sequenceUnitOperation => 8
  | .copyCommandStart => 8
  | .cpycSlotFill _ => 8
  | .cbsetTakesEffect _ => 8
  | .copyComplete _ => 8
  | .gatherEntryWhole _ => 8
  | .flagwFlagWrite => 8
  | .collEngineStart _ => 8
  | .cipherBlockReady _ => 8
  | .waitfReload => 8
  | .waitfDeadline => 8
  | .cycleChargeReport => 8
  | .segmentFetchComplete => 8
  | .heartbeat => 8

/-- The stop bit and qualifier of a slot (R206); an event carries neither. -/
def Instr.hd : Instr → Hd
  | .nop h => h
  | .add h _ _ _ _ => h
  | .sub h _ _ _ _ => h
  | .mul h _ _ _ _ => h
  | .mulh h _ _ _ _ => h
  | .mulhu h _ _ _ _ => h
  | .divs h _ _ _ _ => h
  | .divu h _ _ _ _ => h
  | .rems h _ _ _ _ => h
  | .remu h _ _ _ _ => h
  | .and h _ _ _ _ => h
  | .or h _ _ _ _ => h
  | .xor h _ _ _ _ => h
  | .andn h _ _ _ _ => h
  | .shl h _ _ _ _ => h
  | .shr h _ _ _ _ => h
  | .sar h _ _ _ _ => h
  | .rot h _ _ _ _ => h
  | .min h _ _ _ _ => h
  | .max h _ _ _ _ => h
  | .minu h _ _ _ _ => h
  | .maxu h _ _ _ _ => h
  | .clz h _ _ _ => h
  | .popc h _ _ _ => h
  | .sext h _ _ _ _ => h
  | .zext h _ _ _ _ => h
  | .sel h _ _ _ _ => h
  | .cmp h _ _ _ _ _ => h
  | .plog h _ _ _ _ _ => h
  | .addi h _ _ _ => h
  | .li h _ _ _ => h
  | .lih h _ _ _ => h
  | .fadd h _ _ _ _ => h
  | .fmul h _ _ _ _ => h
  | .ffma h _ _ _ _ => h
  | .fcvt h _ _ _ => h
  | .fcmp h _ _ _ _ _ => h
  | .br h _ _ _ _ => h
  | .brk h _ _ _ _ => h
  | .call h _ _ _ _ => h
  | .ret h _ _ _ => h
  | .seg h _ _ _ _ _ => h
  | .lpset h _ _ _ => h
  | .lpstrd h _ _ _ _ => h
  | .lpmod h _ _ => h
  | .lpmask h _ => h
  | .lpgo h _ => h
  | .lpbrk h _ _ _ _ => h
  | .lpidx h _ _ _ => h
  | .ckpt h => h
  | .yield h => h
  | .taskend h => h
  | .vmov h _ _ => ⟨h.stop, h.q⟩
  | .vadd h _ _ _ => ⟨h.stop, h.q⟩
  | .vsub h _ _ _ => ⟨h.stop, h.q⟩
  | .vmul h _ _ _ => ⟨h.stop, h.q⟩
  | .vfma h _ _ _ => ⟨h.stop, h.q⟩
  | .vfms h _ _ _ => ⟨h.stop, h.q⟩
  | .vmin h _ _ _ => ⟨h.stop, h.q⟩
  | .vmax h _ _ _ => ⟨h.stop, h.q⟩
  | .vabs h _ _ => ⟨h.stop, h.q⟩
  | .vneg h _ _ => ⟨h.stop, h.q⟩
  | .vand h _ _ _ => ⟨h.stop, h.q⟩
  | .vor h _ _ _ => ⟨h.stop, h.q⟩
  | .vxor h _ _ _ => ⟨h.stop, h.q⟩
  | .vandn h _ _ _ => ⟨h.stop, h.q⟩
  | .vshl h _ _ _ => ⟨h.stop, h.q⟩
  | .vshr h _ _ _ => ⟨h.stop, h.q⟩
  | .vsar h _ _ _ => ⟨h.stop, h.q⟩
  | .vcmpeq h _ _ _ => ⟨h.stop, h.q⟩
  | .vcmplt h _ _ _ => ⟨h.stop, h.q⟩
  | .vcmple h _ _ _ => ⟨h.stop, h.q⟩
  | .vcmpltu h _ _ _ => ⟨h.stop, h.q⟩
  | .vcmpleu h _ _ _ => ⟨h.stop, h.q⟩
  | .vcvt h _ _ _ => ⟨h.stop, h.q⟩
  | .vqdx h _ _ _ => ⟨h.stop, h.q⟩
  | .vpermb h _ _ _ => ⟨h.stop, h.q⟩
  | .vshuf h _ _ _ => ⟨h.stop, h.q⟩
  | .vbcast h _ _ _ => ⟨h.stop, h.q⟩
  | .vexts h _ _ _ => ⟨h.stop, h.q⟩
  | .vins h _ _ _ => ⟨h.stop, h.q⟩
  | .viota h _ => ⟨h.stop, h.q⟩
  | .vrsum h _ _ _ => ⟨h.stop, h.q⟩
  | .vrmin h _ _ _ => ⟨h.stop, h.q⟩
  | .vrmax h _ _ _ => ⟨h.stop, h.q⟩
  | .vscan h _ _ _ _ => ⟨h.stop, h.q⟩
  | .vexp2 h _ _ => ⟨h.stop, h.q⟩
  | .vlog2 h _ _ => ⟨h.stop, h.q⟩
  | .vrcp h _ _ => ⟨h.stop, h.q⟩
  | .vrsq h _ _ => ⟨h.stop, h.q⟩
  | .vsqrt h _ _ => ⟨h.stop, h.q⟩
  | .vld h _ _ _ _ => ⟨h.stop, h.q⟩
  | .vst h _ _ _ _ => ⟨h.stop, h.q⟩
  | .vlda h _ _ _ => ⟨h.stop, h.q⟩
  | .vsta h _ _ _ => ⟨h.stop, h.q⟩
  | .vldc h _ _ _ _ => ⟨h.stop, h.q⟩
  | .vstc h _ _ _ _ => ⟨h.stop, h.q⟩
  | .vcopy h _ _ => ⟨h.stop, h.q⟩
  | .vany h _ _ => ⟨h.stop, h.q⟩
  | .vall h _ _ => ⟨h.stop, h.q⟩
  | .vkop h _ _ _ _ => ⟨h.stop, h.q⟩
  | .vkpop h _ _ => ⟨h.stop, h.q⟩
  | .vunpk h _ _ _ _ => ⟨h.stop, h.q⟩
  | .vpack h _ _ _ _ => ⟨h.stop, h.q⟩
  | .vmulh h _ _ _ => ⟨h.stop, h.q⟩
  | .vpopc h _ _ => ⟨h.stop, h.q⟩
  | .vsel h _ _ _ _ => ⟨h.stop, h.q⟩
  | .mclr h => h
  | .mpush h _ _ _ _ _ _ => h
  | .mpushz h _ _ _ _ _ _ => h
  | .mshift h _ _ => h
  | .mdrain h _ => h
  | .mscout h _ _ => h
  | .mcell h _ => h
  | .mcfg h _ => h
  | .mthr h _ => h
  | .tmop h _ _ _ _ => h
  | .mrel h => h
  | .lds h _ _ _ _ => h
  | .sts h _ _ _ _ => h
  | .ldg h _ _ => h
  | .ldga h _ _ => h
  | .lpop h _ _ => h
  | .stg h _ _ _ _ => h
  | .stgr h _ _ _ _ _ => h
  | .gpush h _ _ _ => h
  | .gpop h _ _ => h
  | .scat h _ _ _ _ => h
  | .qdrop h _ _ => h
  | .qcnt h _ _ => h
  | .tlook h _ _ => h
  | .tset h _ _ _ => h
  | .tclr h _ _ => h
  | .fwr h _ _ _ _ => h
  | .frd h _ _ _ _ => h
  | .fcnt h _ _ => h
  | .cpy h _ => h
  | .cpyt h _ => h
  | .cpym h _ _ => h
  | .cpyc h _ _ => h
  | .cbset h _ _ => h
  | .cbadvR h _ _ => h
  | .cbadvW h _ _ => h
  | .cbwait h _ _ => h
  | .tlrd h _ _ _ _ => h
  | .tlwait h _ _ _ _ _ => h
  | .tllag h _ _ _ _ _ => h
  | .qmark h => h
  | .fence h _ => h
  | .atom h _ _ _ => h
  | .atomr h _ _ _ _ => h
  | .atomx h _ _ _ _ => h
  | .deal h _ => h
  | .gbar h => h
  | .coll h _ => h
  | .waitf h _ _ => h
  | .flagw h _ _ _ => h
  | .hclr h _ => h
  | .smerge h _ _ _ _ _ => h
  | .hrd h _ _ _ _ _ => h
  | .hwr h _ _ _ _ => h
  | .ssort h _ _ _ _ => h
  | .spick h _ _ _ => h
  | .srnd h _ _ => h
  | .sradd h _ _ => h
  | .srld h _ _ => h
  | .srst h _ _ => h
  | .suni h _ _ => h
  | .sacc h _ _ => h
  | .sqfork h _ _ _ => h
  | .sqapp h _ _ _ => h
  | .sqcommit h _ _ _ => h
  | .sqtrunc h _ _ => h
  | .sqcur h _ _ => h
  | .sqframe h _ _ => h
  | .fmtw h _ => h
  | .fmtr h _ => h
  | .sysrd h _ _ => h
  | .syswr h _ _ => h
  | .isaq h _ _ => h
  | .cyc h _ => h
  | .trap h _ => h
  | .eret h => h
  | .watch h _ _ => h
  | .bkpt h _ => h
  | .powerOn => ⟨true, 0⟩
  | .resetAssert => ⟨true, 0⟩
  | .bootImageFetch => ⟨true, 0⟩
  | .bootImageTimeout => ⟨true, 0⟩
  | .quote => ⟨true, 0⟩
  | .loadKeySlot => ⟨true, 0⟩
  | .clearKeySlot => ⟨true, 0⟩
  | .launch _ => ⟨true, 0⟩
  | .suspend _ => ⟨true, 0⟩
  | .resume _ => ⟨true, 0⟩
  | .tlbinv _ => ⟨true, 0⟩
  | .tlbInvalidationComplete => ⟨true, 0⟩
  | .retireCore _ => ⟨true, 0⟩
  | .coreRetired _ => ⟨true, 0⟩
  | .restoreCore _ => ⟨true, 0⟩
  | .drainDie _ => ⟨true, 0⟩
  | .dieDrained => ⟨true, 0⟩
  | .undrainDie _ => ⟨true, 0⟩
  | .bypassDie _ => ⟨true, 0⟩
  | .updateFirmware _ => ⟨true, 0⟩
  | .dump _ => ⟨true, 0⟩
  | .clearForeignDumpSlot _ => ⟨true, 0⟩
  | .fatalDump _ => ⟨true, 0⟩
  | .deviceRegisterWrite _ _ => ⟨true, 0⟩
  | .hostRead _ _ _ => ⟨true, 0⟩
  | .hostWrite _ _ _ => ⟨true, 0⟩
  | .hostCompletion _ => ⟨true, 0⟩
  | .loadreq _ _ => ⟨true, 0⟩
  | .loadresp _ => ⟨true, 0⟩
  | .store _ _ => ⟨true, 0⟩
  | .storelast _ _ => ⟨true, 0⟩
  | .atomic _ _ => ⟨true, 0⟩
  | .atomicEngineApply _ => ⟨true, 0⟩
  | .atomresp _ => ⟨true, 0⟩
  | .collPacket _ _ => ⟨true, 0⟩
  | .redirect _ => ⟨true, 0⟩
  | .nack _ => ⟨true, 0⟩
  | .ack _ => ⟨true, 0⟩
  | .undefinedPacket _ => ⟨true, 0⟩
  | .retryBackoffExpiry _ _ _ => ⟨true, 0⟩
  | .requestTimeout _ _ _ => ⟨true, 0⟩
  | .heartbeatTimeout => ⟨true, 0⟩
  | .cxlPortDown _ => ⟨true, 0⟩
  | .cxlPortUp _ => ⟨true, 0⟩
  | .powerLimitReport _ _ => ⟨true, 0⟩
  | .pageWalkComplete _ _ => ⟨true, 0⟩
  | .pageMove _ _ _ => ⟨true, 0⟩
  | .spareRowRepair _ => ⟨true, 0⟩
  | .resultLanding => ⟨true, 0⟩
  | .checkpointConfirm => ⟨true, 0⟩
  | .storeQueueSend => ⟨true, 0⟩
  | .contextSwitch => ⟨true, 0⟩
  | .faultReport => ⟨true, 0⟩
  | .regionFaultNotify _ => ⟨true, 0⟩
  | .moduloKernelCycle => ⟨true, 0⟩
  | .segmentPrefetchComplete => ⟨true, 0⟩
  | .arrayItemEntry => ⟨true, 0⟩
  | .beatSettle => ⟨true, 0⟩
  | .edgeRowLanding => ⟨true, 0⟩
  | .drainLanding => ⟨true, 0⟩
  | .arrayOwnershipEnd => ⟨true, 0⟩
  | .bindCoreGroup => ⟨true, 0⟩
  | .overlaySwap => ⟨true, 0⟩
  | .preload _ => ⟨true, 0⟩
  | .contextSave => ⟨true, 0⟩
  | .contextRestore _ => ⟨true, 0⟩
  | .regionComplete _ => ⟨true, 0⟩
  | .dealerRequest => ⟨true, 0⟩
  | .gangBarrierComplete _ => ⟨true, 0⟩
  | .sequenceUnitOperation => ⟨true, 0⟩
  | .copyCommandStart => ⟨true, 0⟩
  | .cpycSlotFill _ => ⟨true, 0⟩
  | .cbsetTakesEffect _ => ⟨true, 0⟩
  | .copyComplete _ => ⟨true, 0⟩
  | .gatherEntryWhole _ => ⟨true, 0⟩
  | .flagwFlagWrite => ⟨true, 0⟩
  | .collEngineStart _ => ⟨true, 0⟩
  | .cipherBlockReady _ => ⟨true, 0⟩
  | .waitfReload => ⟨true, 0⟩
  | .waitfDeadline => ⟨true, 0⟩
  | .cycleChargeReport => ⟨true, 0⟩
  | .segmentFetchComplete => ⟨true, 0⟩
  | .heartbeat => ⟨true, 0⟩

/-- The feature bit that an instruction requires (R219). -/
def Instr.feature : Instr → Option Nat
  | .vqdx .. => some 0
  | .hclr .. | .smerge .. | .hrd .. | .hwr .. | .ssort .. | .spick .. | .sacc .. => some 1
  | .srnd .. | .sradd .. | .srld .. | .srst .. | .suni .. => some 2
  | .sqfork .. | .sqapp .. | .sqcommit .. | .sqtrunc .. | .sqcur .. | .sqframe .. => some 3
  | .mscout .. | .mthr .. | .tmop .. => some 4
  | .mpushz .. => some 6
  | .fwr .. | .frd .. | .fcnt .. => some 7
  | .lpmask .. => some 8
  | _ => none

end Sys2Proof
end

