-- ==== Sys2Proof/Decode.lean ====
section
/-! DEFINITION. The decoder of slots (R206 to R218) and the encoder written from the same tables. -/

namespace Sys2Proof

/-- Why a slot word is no instruction: an opcode marked "—" (0x0101), or a non-zero bit in a field marked 0 (0x0102) (R207). -/
inductive Reject where
  | undefinedOpcode
  | reservedField
  deriving DecidableEq, Repr, Inhabited

/-- The stop bit and qualifier of a slot word (R206). -/
def decodeHd (w : Nat) : Hd := ⟨w / 2 ^ 31 % 2 = 1, BitVec.ofNat 2 (w / 2 ^ 26)⟩

/-- The stop bit, qualifier, cluster and width of a V slot word (R212). -/
def decodeVHd (cl : Bool) (w : Nat) : VHd :=
  ⟨w / 2 ^ 31 % 2 = 1, BitVec.ofNat 2 (w / 2 ^ 26), cl, BitVec.ofNat 2 (w / 2 ^ 24)⟩

/-- The field of a word that starts at bit `lo` and has the width the instruction gives it. -/
def fd {n : Nat} (lo w : Nat) : BitVec n := BitVec.ofNat n (w / 2 ^ lo)

/-- The `n` bits of a word from bit `lo` are a field marked 0, and zero. -/
def z0 (lo n w : Nat) : Bool := w / 2 ^ lo % 2 ^ n == 0

/-- The opcode of a word: its bits from `lo`, modulo the size `m` of the class's map. -/
def opOf (lo m w : Nat) : Nat := w / 2 ^ lo % m

/-- The instruction, provided the fields marked 0 are zero. -/
def zeroed (ok : Bool) (i : Instr) : Except Reject Instr := if ok then .ok i else .error .reservedField

/-- The C opcode map (R209 to R211). -/
def decodeC (w : Nat) : Except Reject Instr :=
  let h := decodeHd w
  match opOf 20 64 w with
  | 0 => zeroed (z0 0 20 w) (.nop h)
  | 1 => .ok (.add h (fd 18 w) (fd 12 w) (fd 6 w) (fd 0 w))
  | 2 => .ok (.sub h (fd 18 w) (fd 12 w) (fd 6 w) (fd 0 w))
  | 3 => .ok (.mul h (fd 18 w) (fd 12 w) (fd 6 w) (fd 0 w))
  | 4 => .ok (.mulh h (fd 18 w) (fd 12 w) (fd 6 w) (fd 0 w))
  | 5 => .ok (.mulhu h (fd 18 w) (fd 12 w) (fd 6 w) (fd 0 w))
  | 6 => .ok (.divs h (fd 18 w) (fd 12 w) (fd 6 w) (fd 0 w))
  | 7 => .ok (.divu h (fd 18 w) (fd 12 w) (fd 6 w) (fd 0 w))
  | 8 => .ok (.rems h (fd 18 w) (fd 12 w) (fd 6 w) (fd 0 w))
  | 9 => .ok (.remu h (fd 18 w) (fd 12 w) (fd 6 w) (fd 0 w))
  | 10 => .ok (.and h (fd 18 w) (fd 12 w) (fd 6 w) (fd 0 w))
  | 11 => .ok (.or h (fd 18 w) (fd 12 w) (fd 6 w) (fd 0 w))
  | 12 => .ok (.xor h (fd 18 w) (fd 12 w) (fd 6 w) (fd 0 w))
  | 13 => .ok (.andn h (fd 18 w) (fd 12 w) (fd 6 w) (fd 0 w))
  | 14 => .ok (.shl h (fd 18 w) (fd 12 w) (fd 6 w) (fd 0 w))
  | 15 => .ok (.shr h (fd 18 w) (fd 12 w) (fd 6 w) (fd 0 w))
  | 16 => .ok (.sar h (fd 18 w) (fd 12 w) (fd 6 w) (fd 0 w))
  | 17 => .ok (.rot h (fd 18 w) (fd 12 w) (fd 6 w) (fd 0 w))
  | 18 => .ok (.min h (fd 18 w) (fd 12 w) (fd 6 w) (fd 0 w))
  | 19 => .ok (.max h (fd 18 w) (fd 12 w) (fd 6 w) (fd 0 w))
  | 20 => .ok (.minu h (fd 18 w) (fd 12 w) (fd 6 w) (fd 0 w))
  | 21 => .ok (.maxu h (fd 18 w) (fd 12 w) (fd 6 w) (fd 0 w))
  | 22 => zeroed (z0 0 6 w) (.clz h (fd 18 w) (fd 12 w) (fd 6 w))
  | 23 => zeroed (z0 0 6 w) (.popc h (fd 18 w) (fd 12 w) (fd 6 w))
  | 24 => .ok (.sext h (fd 18 w) (fd 12 w) (fd 6 w) (fd 0 w))
  | 25 => .ok (.zext h (fd 18 w) (fd 12 w) (fd 6 w) (fd 0 w))
  | 26 => .ok (.sel h (fd 18 w) (fd 12 w) (fd 6 w) (fd 0 w))
  | 27 => .ok (.cmp h (fd 18 w) (fd 15 w) (fd 12 w) (fd 6 w) (fd 0 w))
  | 28 => zeroed (z0 3 3 w && z0 9 3 w) (.plog h (fd 18 w) (fd 15 w) (fd 12 w) (fd 6 w) (fd 0 w))
  | 30 => .ok (.addi h (fd 18 w) (fd 12 w) (fd 0 w))
  | 31 => .ok (.li h (fd 18 w) (fd 12 w) (fd 0 w))
  | 32 => .ok (.lih h (fd 18 w) (fd 12 w) (fd 0 w))
  | 33 => zeroed (z0 18 1 w) (.fadd h (fd 19 w) (fd 12 w) (fd 6 w) (fd 0 w))
  | 34 => zeroed (z0 18 1 w) (.fmul h (fd 19 w) (fd 12 w) (fd 6 w) (fd 0 w))
  | 35 => zeroed (z0 18 1 w) (.ffma h (fd 19 w) (fd 12 w) (fd 6 w) (fd 0 w))
  | 36 => zeroed (z0 3 3 w && z0 18 2 w) (.fcvt h (fd 12 w) (fd 6 w) (fd 0 w))
  | 37 => zeroed (z0 18 1 w) (.fcmp h (fd 19 w) (fd 15 w) (fd 12 w) (fd 6 w) (fd 0 w))
  | 40 => .ok (.br h (fd 19 w) (fd 16 w) (fd 15 w) (fd 0 w))
  | 41 => .ok (.brk h (fd 19 w) (fd 18 w) (fd 15 w) (fd 0 w))
  | 42 => .ok (.call h (fd 19 w) (fd 16 w) (fd 15 w) (fd 0 w))
  | 43 => zeroed (z0 0 15 w) (.ret h (fd 19 w) (fd 16 w) (fd 15 w))
  | 44 => zeroed (z0 6 7 w) (.seg h (fd 19 w) (fd 16 w) (fd 15 w) (fd 13 w) (fd 0 w))
  | 48 => zeroed (z0 12 5 w) (.lpset h (fd 17 w) (fd 6 w) (fd 0 w))
  | 49 => zeroed (z0 12 3 w) (.lpstrd h (fd 17 w) (fd 15 w) (fd 6 w) (fd 0 w))
  | 50 => zeroed (z0 0 12 w) (.lpmod h (fd 16 w) (fd 12 w))
  | 51 => zeroed (z0 0 17 w) (.lpmask h (fd 17 w))
  | 52 => zeroed (z0 0 17 w) (.lpgo h (fd 17 w))
  | 53 => .ok (.lpbrk h (fd 19 w) (fd 16 w) (fd 15 w) (fd 0 w))
  | 54 => zeroed (z0 3 9 w) (.lpidx h (fd 18 w) (fd 12 w) (fd 0 w))
  | 56 => zeroed (z0 0 20 w) (.ckpt h)
  | 57 => zeroed (z0 0 20 w) (.yield h)
  | 58 => zeroed (z0 0 20 w) (.taskend h)
  | _ => .error .undefinedOpcode

/-- The V opcode map (R212, R213), for cluster `cl`. -/
def decodeV (cl : Bool) (w : Nat) : Except Reject Instr :=
  let h := decodeVHd cl w
  match opOf 18 64 w with
  | 0 => zeroed (z0 0 6 w) (.vmov h (fd 12 w) (fd 6 w))
  | 1 => .ok (.vadd h (fd 12 w) (fd 6 w) (fd 0 w))
  | 2 => .ok (.vsub h (fd 12 w) (fd 6 w) (fd 0 w))
  | 3 => .ok (.vmul h (fd 12 w) (fd 6 w) (fd 0 w))
  | 4 => .ok (.vfma h (fd 12 w) (fd 6 w) (fd 0 w))
  | 5 => .ok (.vfms h (fd 12 w) (fd 6 w) (fd 0 w))
  | 6 => .ok (.vmin h (fd 12 w) (fd 6 w) (fd 0 w))
  | 7 => .ok (.vmax h (fd 12 w) (fd 6 w) (fd 0 w))
  | 8 => zeroed (z0 0 6 w) (.vabs h (fd 12 w) (fd 6 w))
  | 9 => zeroed (z0 0 6 w) (.vneg h (fd 12 w) (fd 6 w))
  | 10 => .ok (.vand h (fd 12 w) (fd 6 w) (fd 0 w))
  | 11 => .ok (.vor h (fd 12 w) (fd 6 w) (fd 0 w))
  | 12 => .ok (.vxor h (fd 12 w) (fd 6 w) (fd 0 w))
  | 13 => .ok (.vandn h (fd 12 w) (fd 6 w) (fd 0 w))
  | 14 => .ok (.vshl h (fd 12 w) (fd 6 w) (fd 0 w))
  | 15 => .ok (.vshr h (fd 12 w) (fd 6 w) (fd 0 w))
  | 16 => .ok (.vsar h (fd 12 w) (fd 6 w) (fd 0 w))
  | 17 => zeroed (z0 15 3 w) (.vcmpeq h (fd 12 w) (fd 6 w) (fd 0 w))
  | 18 => zeroed (z0 15 3 w) (.vcmplt h (fd 12 w) (fd 6 w) (fd 0 w))
  | 19 => zeroed (z0 15 3 w) (.vcmple h (fd 12 w) (fd 6 w) (fd 0 w))
  | 20 => zeroed (z0 15 3 w) (.vcmpltu h (fd 12 w) (fd 6 w) (fd 0 w))
  | 21 => zeroed (z0 15 3 w) (.vcmpleu h (fd 12 w) (fd 6 w) (fd 0 w))
  | 22 => zeroed (z0 4 2 w) (.vcvt h (fd 12 w) (fd 6 w) (fd 0 w))
  | 23 => zeroed (z0 4 2 w) (.vqdx h (fd 12 w) (fd 6 w) (fd 0 w))
  | 25 => .ok (.vpermb h (fd 12 w) (fd 6 w) (fd 0 w))
  | 26 => .ok (.vshuf h (fd 12 w) (fd 6 w) (fd 0 w))
  | 27 => .ok (.vbcast h (fd 12 w) (fd 6 w) (fd 0 w))
  | 28 => .ok (.vexts h (fd 12 w) (fd 6 w) (fd 0 w))
  | 29 => zeroed (true) (.vins h (fd 12 w) (fd 6 w) (fd 0 w))
  | 30 => zeroed (z0 0 12 w) (.viota h (fd 12 w))
  | 31 => zeroed (z0 3 3 w) (.vrsum h (fd 12 w) (fd 6 w) (fd 0 w))
  | 32 => zeroed (z0 3 3 w) (.vrmin h (fd 12 w) (fd 6 w) (fd 0 w))
  | 33 => zeroed (z0 3 3 w) (.vrmax h (fd 12 w) (fd 6 w) (fd 0 w))
  | 34 => zeroed (z0 3 1 w) (.vscan h (fd 12 w) (fd 6 w) (fd 4 w) (fd 0 w))
  | 35 => zeroed (z0 0 6 w) (.vexp2 h (fd 12 w) (fd 6 w))
  | 36 => zeroed (z0 0 6 w) (.vlog2 h (fd 12 w) (fd 6 w))
  | 37 => zeroed (z0 0 6 w) (.vrcp h (fd 12 w) (fd 6 w))
  | 38 => zeroed (z0 0 6 w) (.vrsq h (fd 12 w) (fd 6 w))
  | 39 => zeroed (z0 0 6 w) (.vsqrt h (fd 12 w) (fd 6 w))
  | 40 => .ok (.vld h (fd 12 w) (fd 6 w) (fd 3 w) (fd 0 w))
  | 41 => .ok (.vst h (fd 12 w) (fd 6 w) (fd 3 w) (fd 0 w))
  | 42 => zeroed (z0 3 3 w) (.vlda h (fd 12 w) (fd 6 w) (fd 0 w))
  | 43 => zeroed (z0 3 3 w) (.vsta h (fd 12 w) (fd 6 w) (fd 0 w))
  | 44 => zeroed (z0 10 2 w) (.vldc h (fd 12 w) (fd 6 w) (fd 2 w) (fd 0 w))
  | 45 => zeroed (z0 10 2 w) (.vstc h (fd 12 w) (fd 6 w) (fd 2 w) (fd 0 w))
  | 46 => zeroed (z0 0 6 w) (.vcopy h (fd 12 w) (fd 6 w))
  | 47 => zeroed (z0 0 6 w && z0 9 3 w && z0 15 3 w) (.vany h (fd 12 w) (fd 6 w))
  | 48 => zeroed (z0 0 6 w && z0 9 3 w && z0 15 3 w) (.vall h (fd 12 w) (fd 6 w))
  | 49 => zeroed (z0 3 3 w && z0 9 3 w) (.vkop h (fd 15 w) (fd 12 w) (fd 6 w) (fd 0 w))
  | 50 => zeroed (z0 0 6 w && z0 9 3 w) (.vkpop h (fd 12 w) (fd 6 w))
  | 51 => .ok (.vunpk h (fd 12 w) (fd 6 w) (fd 4 w) (fd 0 w))
  | 52 => .ok (.vpack h (fd 12 w) (fd 6 w) (fd 4 w) (fd 0 w))
  | 53 => .ok (.vmulh h (fd 12 w) (fd 6 w) (fd 0 w))
  | 55 => zeroed (z0 0 6 w) (.vpopc h (fd 12 w) (fd 6 w))
  | 56 => .ok (.vsel h 0 (fd 12 w) (fd 6 w) (fd 0 w))
  | 57 => .ok (.vsel h 1 (fd 12 w) (fd 6 w) (fd 0 w))
  | 58 => .ok (.vsel h 2 (fd 12 w) (fd 6 w) (fd 0 w))
  | 59 => .ok (.vsel h 3 (fd 12 w) (fd 6 w) (fd 0 w))
  | 60 => .ok (.vsel h 4 (fd 12 w) (fd 6 w) (fd 0 w))
  | 61 => .ok (.vsel h 5 (fd 12 w) (fd 6 w) (fd 0 w))
  | 62 => .ok (.vsel h 6 (fd 12 w) (fd 6 w) (fd 0 w))
  | 63 => .ok (.vsel h 7 (fd 12 w) (fd 6 w) (fd 0 w))
  | _ => .error .undefinedOpcode

/-- The M opcode map (R214). -/
def decodeM (w : Nat) : Except Reject Instr :=
  let h := decodeHd w
  match opOf 22 16 w with
  | 0 => zeroed (z0 0 22 w) (.mclr h)
  | 1 => zeroed (z0 0 3 w) (.mpush h (fd 18 w) (fd 14 w) (fd 11 w) (fd 8 w) (fd 5 w) (fd 3 w))
  | 2 => zeroed (z0 0 3 w) (.mpushz h (fd 18 w) (fd 14 w) (fd 11 w) (fd 8 w) (fd 5 w) (fd 3 w))
  | 3 => zeroed (z0 0 14 w) (.mshift h (fd 16 w) (fd 14 w))
  | 4 => zeroed (z0 0 16 w) (.mdrain h (fd 16 w))
  | 5 => zeroed (z0 0 16 w) (.mscout h (fd 19 w) (fd 16 w))
  | 6 => zeroed (z0 0 16 w) (.mcell h (fd 16 w))
  | 7 => zeroed (z0 0 16 w) (.mcfg h (fd 16 w))
  | 8 => zeroed (z0 0 16 w) (.mthr h (fd 16 w))
  | 9 => zeroed (z0 0 10 w) (.tmop h (fd 19 w) (fd 16 w) (fd 13 w) (fd 10 w))
  | 10 => zeroed (z0 0 22 w) (.mrel h)
  | _ => .error .undefinedOpcode

/-- The X opcode map (R215). -/
def decodeX (w : Nat) : Except Reject Instr :=
  let h := decodeHd w
  match opOf 20 64 w with
  | 0 => .ok (.lds h (fd 18 w) (fd 12 w) (fd 6 w) (fd 0 w))
  | 1 => .ok (.sts h (fd 18 w) (fd 12 w) (fd 6 w) (fd 0 w))
  | 2 => zeroed (z0 0 6 w && z0 12 5 w) (.ldg h (fd 17 w) (fd 6 w))
  | 3 => zeroed (z0 0 6 w && z0 12 5 w) (.ldga h (fd 17 w) (fd 6 w))
  | 4 => zeroed (z0 0 12 w) (.lpop h (fd 18 w) (fd 12 w))
  | 5 => zeroed (z0 12 4 w) (.stg h (fd 17 w) (fd 16 w) (fd 6 w) (fd 0 w))
  | 6 => zeroed (z0 12 1 w) (.stgr h (fd 17 w) (fd 16 w) (fd 13 w) (fd 6 w) (fd 0 w))
  | 7 => zeroed (z0 12 7 w) (.gpush h (fd 19 w) (fd 6 w) (fd 0 w))
  | 8 => zeroed (z0 0 12 w && z0 18 1 w) (.gpop h (fd 19 w) (fd 12 w))
  | 9 => zeroed (z0 18 1 w) (.scat h (fd 19 w) (fd 12 w) (fd 6 w) (fd 0 w))
  | 10 => zeroed (z0 7 12 w) (.qdrop h (fd 19 w) (fd 0 w))
  | 11 => zeroed (z0 0 12 w && z0 18 1 w) (.qcnt h (fd 19 w) (fd 12 w))
  | 12 => zeroed (z0 0 6 w && z0 18 2 w) (.tlook h (fd 12 w) (fd 6 w))
  | 13 => zeroed (z0 12 5 w) (.tset h (fd 17 w) (fd 6 w) (fd 0 w))
  | 14 => zeroed (z0 0 6 w && z0 12 5 w) (.tclr h (fd 17 w) (fd 6 w))
  | 15 => zeroed (z0 0 11 w) (.fwr h (fd 19 w) (fd 18 w) (fd 12 w) (fd 11 w))
  | 16 => zeroed (z0 0 11 w) (.frd h (fd 19 w) (fd 18 w) (fd 12 w) (fd 11 w))
  | 17 => zeroed (z0 0 12 w && z0 18 1 w) (.fcnt h (fd 19 w) (fd 12 w))
  | _ => .error .undefinedOpcode

/-- The D opcode map (R216). -/
def decodeD (w : Nat) : Except Reject Instr :=
  let h := decodeHd w
  match opOf 20 64 w with
  | 0 => zeroed (z0 0 6 w && z0 12 8 w) (.cpy h (fd 6 w))
  | 1 => zeroed (z0 0 6 w && z0 12 8 w) (.cpyt h (fd 6 w))
  | 2 => zeroed (z0 0 6 w && z0 12 5 w) (.cpym h (fd 17 w) (fd 6 w))
  | 3 => zeroed (z0 0 6 w && z0 16 4 w) (.cpyc h (fd 12 w) (fd 6 w))
  | 4 => zeroed (z0 0 6 w && z0 16 4 w) (.cbset h (fd 12 w) (fd 6 w))
  | 5 => zeroed (z0 9 3 w && z0 16 3 w) (if z0 19 1 w then .cbadvR h (fd 12 w) (fd 0 w) else .cbadvW h (fd 12 w) (fd 0 w))
  | 6 => zeroed (z0 9 3 w && z0 16 4 w) (.cbwait h (fd 12 w) (fd 0 w))
  | 7 => zeroed (z0 6 8 w) (.tlrd h (fd 17 w) (fd 16 w) (fd 14 w) (fd 0 w))
  | 8 => zeroed (z0 0 6 w && z0 12 1 w) (.tlwait h (fd 17 w) (fd 16 w) (fd 14 w) (fd 13 w) (fd 6 w))
  | 9 => zeroed (z0 0 6 w && z0 12 1 w) (.tllag h (fd 17 w) (fd 16 w) (fd 14 w) (fd 13 w) (fd 6 w))
  | 10 => zeroed (z0 0 20 w) (.qmark h)
  | 11 => zeroed (z0 0 17 w) (.fence h (fd 17 w))
  | 12 => zeroed (z0 0 6 w && z0 12 2 w) (.atom h (fd 17 w) (fd 14 w) (fd 6 w))
  | 13 => zeroed (z0 12 2 w) (.atomr h (fd 17 w) (fd 14 w) (fd 6 w) (fd 0 w))
  | 14 => zeroed (z0 12 2 w) (.atomx h (fd 17 w) (fd 14 w) (fd 6 w) (fd 0 w))
  | 15 => zeroed (z0 6 14 w) (.deal h (fd 0 w))
  | 16 => zeroed (z0 0 20 w) (.gbar h)
  | 17 => zeroed (z0 0 6 w && z0 12 8 w) (.coll h (fd 6 w))
  | 18 => zeroed (z0 0 6 w && z0 12 5 w) (.waitf h (fd 17 w) (fd 6 w))
  | 19 => zeroed (z0 0 6 w) (.flagw h (fd 15 w) (fd 12 w) (fd 6 w))
  | _ => .error .undefinedOpcode

/-- The S opcode map (R217). -/
def decodeS (w : Nat) : Except Reject Instr :=
  let h := decodeHd w
  match opOf 20 64 w with
  | 0 => zeroed (z0 0 18 w) (.hclr h (fd 18 w))
  | 1 => zeroed (z0 12 2 w) (.smerge h (fd 18 w) (fd 17 w) (fd 14 w) (fd 6 w) (fd 0 w))
  | 2 => zeroed (z0 6 8 w) (.hrd h (fd 18 w) (fd 17 w) (fd 15 w) (fd 14 w) (fd 0 w))
  | 3 => zeroed (z0 0 6 w && z0 12 2 w && z0 15 2 w) (.hwr h (fd 18 w) (fd 17 w) (fd 14 w) (fd 6 w))
  | 4 => zeroed (z0 12 2 w && z0 18 2 w) (.ssort h (fd 17 w) (fd 14 w) (fd 6 w) (fd 0 w))
  | 5 => zeroed (z0 12 6 w) (.spick h (fd 18 w) (fd 6 w) (fd 0 w))
  | 6 => zeroed (z0 6 12 w) (.srnd h (fd 18 w) (fd 0 w))
  | 7 => zeroed (z0 0 6 w && z0 12 6 w) (.sradd h (fd 18 w) (fd 6 w))
  | 8 => zeroed (z0 0 6 w && z0 12 6 w) (.srld h (fd 18 w) (fd 6 w))
  | 9 => zeroed (z0 0 6 w && z0 12 6 w) (.srst h (fd 18 w) (fd 6 w))
  | 10 => zeroed (z0 12 8 w) (.suni h (fd 6 w) (fd 0 w))
  | 11 => zeroed (z0 0 6 w && z0 12 5 w) (.sacc h (fd 17 w) (fd 6 w))
  | 12 => zeroed (z0 17 3 w) (.sqfork h (fd 12 w) (fd 6 w) (fd 0 w))
  | 13 => zeroed (z0 17 3 w) (.sqapp h (fd 12 w) (fd 6 w) (fd 0 w))
  | 14 => zeroed (z0 17 3 w) (.sqcommit h (fd 12 w) (fd 6 w) (fd 0 w))
  | 15 => zeroed (z0 12 8 w) (.sqtrunc h (fd 6 w) (fd 0 w))
  | 16 => zeroed (z0 12 8 w) (.sqcur h (fd 6 w) (fd 0 w))
  | 17 => zeroed (z0 12 8 w) (.sqframe h (fd 6 w) (fd 0 w))
  | _ => .error .undefinedOpcode

/-- The E opcode map (R218). -/
def decodeE (w : Nat) : Except Reject Instr :=
  let h := decodeHd w
  match opOf 20 64 w with
  | 0 => zeroed (z0 0 6 w && z0 12 8 w) (.fmtw h (fd 6 w))
  | 1 => zeroed (z0 0 12 w && z0 18 2 w) (.fmtr h (fd 12 w))
  | 2 => zeroed (z0 18 2 w) (.sysrd h (fd 12 w) (fd 0 w))
  | 3 => zeroed (z0 18 2 w) (.syswr h (fd 12 w) (fd 0 w))
  | 4 => zeroed (z0 3 9 w && z0 18 2 w) (.isaq h (fd 12 w) (fd 0 w))
  | 5 => zeroed (z0 0 12 w && z0 18 2 w) (.cyc h (fd 12 w))
  | 6 => zeroed (z0 12 8 w) (.trap h (fd 0 w))
  | 7 => zeroed (z0 0 20 w) (.eret h)
  | 8 => zeroed (z0 0 6 w && z0 12 6 w) (.watch h (fd 18 w) (fd 6 w))
  | 9 => zeroed (z0 12 8 w) (.bkpt h (fd 0 w))
  | _ => .error .undefinedOpcode

/-- The instruction that a 32-bit slot word holds (R206, R207). -/
def decode (w : Nat) : Except Reject Instr :=
  match w / 2 ^ 28 % 8 with
  | 0 => decodeC w
  | 1 => decodeV false w
  | 2 => decodeV true w
  | 3 => decodeM w
  | 4 => decodeX w
  | 5 => decodeD w
  | 6 => decodeS w
  | _ => decodeE w

/-- The instruction of a row of opcode_table.json: every slot is one 32-bit word; the device's events have no encoding. -/
def decodeTableWord (nbits w : Nat) : Option Instr :=
  if nbits = 32 ∧ w < 2 ^ 32 then
    match decode w with
    | .ok i => some i
    | .error _ => none
  else none

/-- The bits of a slot header above the class and opcode bits `base` (R206). -/
def encodeHd (h : Hd) (base : Nat) : Nat := h.stop.toNat * 2 ^ 31 + h.q.toNat * 2 ^ 26 + base

/-- The bits of a V slot header with opcode `o` (R212). -/
def encodeVHd (h : VHd) (o : Nat) : Nat :=
  h.stop.toNat * 2 ^ 31 + (if h.cl then 2 else 1) * 2 ^ 28 + h.q.toNat * 2 ^ 26 + h.w.toNat * 2 ^ 24 + o * 2 ^ 18

/-- `base` with fields added, each a value and its lowest bit. -/
def e1 (base a al : Nat) : Nat := base + a * 2 ^ al
/-- Two fields; see `e1`. -/
def e2 (base a al b bl : Nat) : Nat := e1 base a al + b * 2 ^ bl
/-- Three fields; see `e1`. -/
def e3 (base a al b bl c cl : Nat) : Nat := e2 base a al b bl + c * 2 ^ cl
/-- Four fields; see `e1`. -/
def e4 (base a al b bl c cl d dl : Nat) : Nat := e3 base a al b bl c cl + d * 2 ^ dl
/-- Five fields; see `e1`. -/
def e5 (base a al b bl c cl d dl f fl : Nat) : Nat := e4 base a al b bl c cl d dl + f * 2 ^ fl
/-- Six fields; see `e1`. -/
def e6 (base a al b bl c cl d dl f fl g gl : Nat) : Nat := e5 base a al b bl c cl d dl f fl + g * 2 ^ gl

/-- The word of a slot instruction (R206 to R218); `none` for an event, which has no encoding. -/
def encode : Instr → Option Nat
  | .nop h => some (encodeHd h 0x00000000)
  | .add h g d a b => some (e4 (encodeHd h 0x00100000) g.toNat 18 d.toNat 12 a.toNat 6 b.toNat 0)
  | .sub h g d a b => some (e4 (encodeHd h 0x00200000) g.toNat 18 d.toNat 12 a.toNat 6 b.toNat 0)
  | .mul h g d a b => some (e4 (encodeHd h 0x00300000) g.toNat 18 d.toNat 12 a.toNat 6 b.toNat 0)
  | .mulh h g d a b => some (e4 (encodeHd h 0x00400000) g.toNat 18 d.toNat 12 a.toNat 6 b.toNat 0)
  | .mulhu h g d a b => some (e4 (encodeHd h 0x00500000) g.toNat 18 d.toNat 12 a.toNat 6 b.toNat 0)
  | .divs h g d a b => some (e4 (encodeHd h 0x00600000) g.toNat 18 d.toNat 12 a.toNat 6 b.toNat 0)
  | .divu h g d a b => some (e4 (encodeHd h 0x00700000) g.toNat 18 d.toNat 12 a.toNat 6 b.toNat 0)
  | .rems h g d a b => some (e4 (encodeHd h 0x00800000) g.toNat 18 d.toNat 12 a.toNat 6 b.toNat 0)
  | .remu h g d a b => some (e4 (encodeHd h 0x00900000) g.toNat 18 d.toNat 12 a.toNat 6 b.toNat 0)
  | .and h g d a b => some (e4 (encodeHd h 0x00A00000) g.toNat 18 d.toNat 12 a.toNat 6 b.toNat 0)
  | .or h g d a b => some (e4 (encodeHd h 0x00B00000) g.toNat 18 d.toNat 12 a.toNat 6 b.toNat 0)
  | .xor h g d a b => some (e4 (encodeHd h 0x00C00000) g.toNat 18 d.toNat 12 a.toNat 6 b.toNat 0)
  | .andn h g d a b => some (e4 (encodeHd h 0x00D00000) g.toNat 18 d.toNat 12 a.toNat 6 b.toNat 0)
  | .shl h g d a b => some (e4 (encodeHd h 0x00E00000) g.toNat 18 d.toNat 12 a.toNat 6 b.toNat 0)
  | .shr h g d a b => some (e4 (encodeHd h 0x00F00000) g.toNat 18 d.toNat 12 a.toNat 6 b.toNat 0)
  | .sar h g d a b => some (e4 (encodeHd h 0x01000000) g.toNat 18 d.toNat 12 a.toNat 6 b.toNat 0)
  | .rot h g d a b => some (e4 (encodeHd h 0x01100000) g.toNat 18 d.toNat 12 a.toNat 6 b.toNat 0)
  | .min h g d a b => some (e4 (encodeHd h 0x01200000) g.toNat 18 d.toNat 12 a.toNat 6 b.toNat 0)
  | .max h g d a b => some (e4 (encodeHd h 0x01300000) g.toNat 18 d.toNat 12 a.toNat 6 b.toNat 0)
  | .minu h g d a b => some (e4 (encodeHd h 0x01400000) g.toNat 18 d.toNat 12 a.toNat 6 b.toNat 0)
  | .maxu h g d a b => some (e4 (encodeHd h 0x01500000) g.toNat 18 d.toNat 12 a.toNat 6 b.toNat 0)
  | .clz h g d a => some (e3 (encodeHd h 0x01600000) g.toNat 18 d.toNat 12 a.toNat 6)
  | .popc h g d a => some (e3 (encodeHd h 0x01700000) g.toNat 18 d.toNat 12 a.toNat 6)
  | .sext h g d a n => some (e4 (encodeHd h 0x01800000) g.toNat 18 d.toNat 12 a.toNat 6 n.toNat 0)
  | .zext h g d a n => some (e4 (encodeHd h 0x01900000) g.toNat 18 d.toNat 12 a.toNat 6 n.toNat 0)
  | .sel h p d a b => some (e4 (encodeHd h 0x01A00000) p.toNat 18 d.toNat 12 a.toNat 6 b.toNat 0)
  | .cmp h g k c a b => some (e5 (encodeHd h 0x01B00000) g.toNat 18 k.toNat 15 c.toNat 12 a.toNat 6 b.toNat 0)
  | .plog h g k o x y => some (e5 (encodeHd h 0x01C00000) g.toNat 18 k.toNat 15 o.toNat 12 x.toNat 6 y.toNat 0)
  | .addi h g d i => some (e3 (encodeHd h 0x01E00000) g.toNat 18 d.toNat 12 i.toNat 0)
  | .li h g d i => some (e3 (encodeHd h 0x01F00000) g.toNat 18 d.toNat 12 i.toNat 0)
  | .lih h g d i => some (e3 (encodeHd h 0x02000000) g.toNat 18 d.toNat 12 i.toNat 0)
  | .fadd h p d a b => some (e4 (encodeHd h 0x02100000) p.toNat 19 d.toNat 12 a.toNat 6 b.toNat 0)
  | .fmul h p d a b => some (e4 (encodeHd h 0x02200000) p.toNat 19 d.toNat 12 a.toNat 6 b.toNat 0)
  | .ffma h p d a b => some (e4 (encodeHd h 0x02300000) p.toNat 19 d.toNat 12 a.toNat 6 b.toNat 0)
  | .fcvt h d a c => some (e3 (encodeHd h 0x02400000) d.toNat 12 a.toNat 6 c.toNat 0)
  | .fcmp h p k c a b => some (e5 (encodeHd h 0x02500000) p.toNat 19 k.toNat 15 c.toNat 12 a.toNat 6 b.toNat 0)
  | .br h n p e d => some (e4 (encodeHd h 0x02800000) n.toNat 19 p.toNat 16 e.toNat 15 d.toNat 0)
  | .brk h n c k d => some (e4 (encodeHd h 0x02900000) n.toNat 19 c.toNat 18 k.toNat 15 d.toNat 0)
  | .call h n p e d => some (e4 (encodeHd h 0x02A00000) n.toNat 19 p.toNat 16 e.toNat 15 d.toNat 0)
  | .ret h n p e => some (e3 (encodeHd h 0x02B00000) n.toNat 19 p.toNat 16 e.toNat 15)
  | .seg h n p e k r => some (e5 (encodeHd h 0x02C00000) n.toNat 19 p.toNat 16 e.toNat 15 k.toNat 13 r.toNat 0)
  | .lpset h l a b => some (e3 (encodeHd h 0x03000000) l.toNat 17 a.toNat 6 b.toNat 0)
  | .lpstrd h l k a b => some (e4 (encodeHd h 0x03100000) l.toNat 17 k.toNat 15 a.toNat 6 b.toNat 0)
  | .lpmod h i t => some (e2 (encodeHd h 0x03200000) i.toNat 16 t.toNat 12)
  | .lpmask h m => some (e1 (encodeHd h 0x03300000) m.toNat 17)
  | .lpgo h d => some (e1 (encodeHd h 0x03400000) d.toNat 17)
  | .lpbrk h n p e d => some (e4 (encodeHd h 0x03500000) n.toNat 19 p.toNat 16 e.toNat 15 d.toNat 0)
  | .lpidx h g d l => some (e3 (encodeHd h 0x03600000) g.toNat 18 d.toNat 12 l.toNat 0)
  | .ckpt h => some (encodeHd h 0x03800000)
  | .yield h => some (encodeHd h 0x03900000)
  | .taskend h => some (encodeHd h 0x03A00000)
  | .vmov h d a => some (e2 (encodeVHd h 0) d.toNat 12 a.toNat 6)
  | .vadd h d a b => some (e3 (encodeVHd h 1) d.toNat 12 a.toNat 6 b.toNat 0)
  | .vsub h d a b => some (e3 (encodeVHd h 2) d.toNat 12 a.toNat 6 b.toNat 0)
  | .vmul h d a b => some (e3 (encodeVHd h 3) d.toNat 12 a.toNat 6 b.toNat 0)
  | .vfma h d a b => some (e3 (encodeVHd h 4) d.toNat 12 a.toNat 6 b.toNat 0)
  | .vfms h d a b => some (e3 (encodeVHd h 5) d.toNat 12 a.toNat 6 b.toNat 0)
  | .vmin h d a b => some (e3 (encodeVHd h 6) d.toNat 12 a.toNat 6 b.toNat 0)
  | .vmax h d a b => some (e3 (encodeVHd h 7) d.toNat 12 a.toNat 6 b.toNat 0)
  | .vabs h d a => some (e2 (encodeVHd h 8) d.toNat 12 a.toNat 6)
  | .vneg h d a => some (e2 (encodeVHd h 9) d.toNat 12 a.toNat 6)
  | .vand h d a b => some (e3 (encodeVHd h 10) d.toNat 12 a.toNat 6 b.toNat 0)
  | .vor h d a b => some (e3 (encodeVHd h 11) d.toNat 12 a.toNat 6 b.toNat 0)
  | .vxor h d a b => some (e3 (encodeVHd h 12) d.toNat 12 a.toNat 6 b.toNat 0)
  | .vandn h d a b => some (e3 (encodeVHd h 13) d.toNat 12 a.toNat 6 b.toNat 0)
  | .vshl h d a b => some (e3 (encodeVHd h 14) d.toNat 12 a.toNat 6 b.toNat 0)
  | .vshr h d a b => some (e3 (encodeVHd h 15) d.toNat 12 a.toNat 6 b.toNat 0)
  | .vsar h d a b => some (e3 (encodeVHd h 16) d.toNat 12 a.toNat 6 b.toNat 0)
  | .vcmpeq h k a b => some (e3 (encodeVHd h 17) k.toNat 12 a.toNat 6 b.toNat 0)
  | .vcmplt h k a b => some (e3 (encodeVHd h 18) k.toNat 12 a.toNat 6 b.toNat 0)
  | .vcmple h k a b => some (e3 (encodeVHd h 19) k.toNat 12 a.toNat 6 b.toNat 0)
  | .vcmpltu h k a b => some (e3 (encodeVHd h 20) k.toNat 12 a.toNat 6 b.toNat 0)
  | .vcmpleu h k a b => some (e3 (encodeVHd h 21) k.toNat 12 a.toNat 6 b.toNat 0)
  | .vcvt h d a f => some (e3 (encodeVHd h 22) d.toNat 12 a.toNat 6 f.toNat 0)
  | .vqdx h d a f => some (e3 (encodeVHd h 23) d.toNat 12 a.toNat 6 f.toNat 0)
  | .vpermb h d a b => some (e3 (encodeVHd h 25) d.toNat 12 a.toNat 6 b.toNat 0)
  | .vshuf h d a b => some (e3 (encodeVHd h 26) d.toNat 12 a.toNat 6 b.toNat 0)
  | .vbcast h d a l => some (e3 (encodeVHd h 27) d.toNat 12 a.toNat 6 l.toNat 0)
  | .vexts h d a l => some (e3 (encodeVHd h 28) d.toNat 12 a.toNat 6 l.toNat 0)
  | .vins h d l b => some (e3 (encodeVHd h 29) d.toNat 12 l.toNat 6 b.toNat 0)
  | .viota h d => some (e1 (encodeVHd h 30) d.toNat 12)
  | .vrsum h d a k => some (e3 (encodeVHd h 31) d.toNat 12 a.toNat 6 k.toNat 0)
  | .vrmin h d a k => some (e3 (encodeVHd h 32) d.toNat 12 a.toNat 6 k.toNat 0)
  | .vrmax h d a k => some (e3 (encodeVHd h 33) d.toNat 12 a.toNat 6 k.toNat 0)
  | .vscan h d a o k => some (e4 (encodeVHd h 34) d.toNat 12 a.toNat 6 o.toNat 4 k.toNat 0)
  | .vexp2 h d a => some (e2 (encodeVHd h 35) d.toNat 12 a.toNat 6)
  | .vlog2 h d a => some (e2 (encodeVHd h 36) d.toNat 12 a.toNat 6)
  | .vrcp h d a => some (e2 (encodeVHd h 37) d.toNat 12 a.toNat 6)
  | .vrsq h d a => some (e2 (encodeVHd h 38) d.toNat 12 a.toNat 6)
  | .vsqrt h d a => some (e2 (encodeVHd h 39) d.toNat 12 a.toNat 6)
  | .vld h d a z f => some (e4 (encodeVHd h 40) d.toNat 12 a.toNat 6 z.toNat 3 f.toNat 0)
  | .vst h d a z f => some (e4 (encodeVHd h 41) d.toNat 12 a.toNat 6 z.toNat 3 f.toNat 0)
  | .vlda h d a f => some (e3 (encodeVHd h 42) d.toNat 12 a.toNat 6 f.toNat 0)
  | .vsta h d a f => some (e3 (encodeVHd h 43) d.toNat 12 a.toNat 6 f.toNat 0)
  | .vldc h d u l x => some (e4 (encodeVHd h 44) d.toNat 12 u.toNat 6 l.toNat 2 x.toNat 0)
  | .vstc h d u l x => some (e4 (encodeVHd h 45) d.toNat 12 u.toNat 6 l.toNat 2 x.toNat 0)
  | .vcopy h d a => some (e2 (encodeVHd h 46) d.toNat 12 a.toNat 6)
  | .vany h p k => some (e2 (encodeVHd h 47) p.toNat 12 k.toNat 6)
  | .vall h p k => some (e2 (encodeVHd h 48) p.toNat 12 k.toNat 6)
  | .vkop h o m x y => some (e4 (encodeVHd h 49) o.toNat 15 m.toNat 12 x.toNat 6 y.toNat 0)
  | .vkpop h d k => some (e2 (encodeVHd h 50) d.toNat 12 k.toNat 6)
  | .vunpk h d a t f => some (e4 (encodeVHd h 51) d.toNat 12 a.toNat 6 t.toNat 4 f.toNat 0)
  | .vpack h d a t f => some (e4 (encodeVHd h 52) d.toNat 12 a.toNat 6 t.toNat 4 f.toNat 0)
  | .vmulh h d a b => some (e3 (encodeVHd h 53) d.toNat 12 a.toNat 6 b.toNat 0)
  | .vpopc h d a => some (e2 (encodeVHd h 55) d.toNat 12 a.toNat 6)
  | .vsel h m d a b => some (e3 (encodeVHd h (56 + m.toNat)) d.toNat 12 a.toNat 6 b.toNat 0)
  | .mclr h => some (encodeHd h 0x30000000)
  | .mpush h a b m l k e => some (e6 (encodeHd h 0x30400000) a.toNat 18 b.toNat 14 m.toNat 11 l.toNat 8 k.toNat 5 e.toNat 3)
  | .mpushz h a b m l k e => some (e6 (encodeHd h 0x30800000) a.toNat 18 b.toNat 14 m.toNat 11 l.toNat 8 k.toNat 5 e.toNat 3)
  | .mshift h a t => some (e2 (encodeHd h 0x30C00000) a.toNat 16 t.toNat 14)
  | .mdrain h a => some (e1 (encodeHd h 0x31000000) a.toNat 16)
  | .mscout h d i => some (e2 (encodeHd h 0x31400000) d.toNat 19 i.toNat 16)
  | .mcell h a => some (e1 (encodeHd h 0x31800000) a.toNat 16)
  | .mcfg h a => some (e1 (encodeHd h 0x31C00000) a.toNat 16)
  | .mthr h a => some (e1 (encodeHd h 0x32000000) a.toNat 16)
  | .tmop h d a b o => some (e4 (encodeHd h 0x32400000) d.toNat 19 a.toNat 16 b.toNat 13 o.toNat 10)
  | .mrel h => some (encodeHd h 0x32800000)
  | .lds h n d a f => some (e4 (encodeHd h 0x40000000) n.toNat 18 d.toNat 12 a.toNat 6 f.toNat 0)
  | .sts h n d a f => some (e4 (encodeHd h 0x40100000) n.toNat 18 d.toNat 12 a.toNat 6 f.toNat 0)
  | .ldg h n a => some (e2 (encodeHd h 0x40200000) n.toNat 17 a.toNat 6)
  | .ldga h n a => some (e2 (encodeHd h 0x40300000) n.toNat 17 a.toNat 6)
  | .lpop h f d => some (e2 (encodeHd h 0x40400000) f.toNat 18 d.toNat 12)
  | .stg h n c a d => some (e4 (encodeHd h 0x40500000) n.toNat 17 c.toNat 16 a.toNat 6 d.toNat 0)
  | .stgr h n c p a d => some (e5 (encodeHd h 0x40600000) n.toNat 17 c.toNat 16 p.toNat 13 a.toNat 6 d.toNat 0)
  | .gpush h c a x => some (e3 (encodeHd h 0x40700000) c.toNat 19 a.toNat 6 x.toNat 0)
  | .gpop h c d => some (e2 (encodeHd h 0x40800000) c.toNat 19 d.toNat 12)
  | .scat h c d a x => some (e4 (encodeHd h 0x40900000) c.toNat 19 d.toNat 12 a.toNat 6 x.toNat 0)
  | .qdrop h u n => some (e2 (encodeHd h 0x40A00000) u.toNat 19 n.toNat 0)
  | .qcnt h u d => some (e2 (encodeHd h 0x40B00000) u.toNat 19 d.toNat 12)
  | .tlook h d a => some (e2 (encodeHd h 0x40C00000) d.toNat 12 a.toNat 6)
  | .tset h w a b => some (e3 (encodeHd h 0x40D00000) w.toNat 17 a.toNat 6 b.toNat 0)
  | .tclr h w a => some (e2 (encodeHd h 0x40E00000) w.toNat 17 a.toNat 6)
  | .fwr h p k r c => some (e4 (encodeHd h 0x40F00000) p.toNat 19 k.toNat 18 r.toNat 12 c.toNat 11)
  | .frd h p k r c => some (e4 (encodeHd h 0x41000000) p.toNat 19 k.toNat 18 r.toNat 12 c.toNat 11)
  | .fcnt h p d => some (e2 (encodeHd h 0x41100000) p.toNat 19 d.toNat 12)
  | .cpy h a => some (e1 (encodeHd h 0x50000000) a.toNat 6)
  | .cpyt h a => some (e1 (encodeHd h 0x50100000) a.toNat 6)
  | .cpym h m a => some (e2 (encodeHd h 0x50200000) m.toNat 17 a.toNat 6)
  | .cpyc h b a => some (e2 (encodeHd h 0x50300000) b.toNat 12 a.toNat 6)
  | .cbset h b a => some (e2 (encodeHd h 0x50400000) b.toNat 12 a.toNat 6)
  | .cbadvR h b n => some (e2 (encodeHd h 0x50500000) b.toNat 12 n.toNat 0)
  | .cbadvW h b n => some (e2 (encodeHd h 0x50580000) b.toNat 12 n.toNat 0)
  | .cbwait h b n => some (e2 (encodeHd h 0x50600000) b.toNat 12 n.toNat 0)
  | .tlrd h c o x d => some (e4 (encodeHd h 0x50700000) c.toNat 17 o.toNat 16 x.toNat 14 d.toNat 0)
  | .tlwait h c o x i n => some (e5 (encodeHd h 0x50800000) c.toNat 17 o.toNat 16 x.toNat 14 i.toNat 13 n.toNat 6)
  | .tllag h c o x i n => some (e5 (encodeHd h 0x50900000) c.toNat 17 o.toNat 16 x.toNat 14 i.toNat 13 n.toNat 6)
  | .qmark h => some (encodeHd h 0x50A00000)
  | .fence h p => some (e1 (encodeHd h 0x50B00000) p.toNat 17)
  | .atom h o t a => some (e3 (encodeHd h 0x50C00000) o.toNat 17 t.toNat 14 a.toNat 6)
  | .atomr h o t a d => some (e4 (encodeHd h 0x50D00000) o.toNat 17 t.toNat 14 a.toNat 6 d.toNat 0)
  | .atomx h o t a d => some (e4 (encodeHd h 0x50E00000) o.toNat 17 t.toNat 14 a.toNat 6 d.toNat 0)
  | .deal h d => some (e1 (encodeHd h 0x50F00000) d.toNat 0)
  | .gbar h => some (encodeHd h 0x51000000)
  | .coll h a => some (e1 (encodeHd h 0x51100000) a.toNat 6)
  | .waitf h k a => some (e2 (encodeHd h 0x51200000) k.toNat 17 a.toNat 6)
  | .flagw h m p a => some (e3 (encodeHd h 0x51300000) m.toNat 15 p.toNat 12 a.toNat 6)
  | .hclr h hn => some (e1 (encodeHd h 0x60000000) hn.toNat 18)
  | .smerge h hn c k a b => some (e5 (encodeHd h 0x60100000) hn.toNat 18 c.toNat 17 k.toNat 14 a.toNat 6 b.toNat 0)
  | .hrd h hn c f x d => some (e5 (encodeHd h 0x60200000) hn.toNat 18 c.toNat 17 f.toNat 15 x.toNat 14 d.toNat 0)
  | .hwr h hn c x a => some (e4 (encodeHd h 0x60300000) hn.toNat 18 c.toNat 17 x.toNat 14 a.toNat 6)
  | .ssort h c k a d => some (e4 (encodeHd h 0x60400000) c.toNat 17 k.toNat 14 a.toNat 6 d.toNat 0)
  | .spick h hn a d => some (e3 (encodeHd h 0x60500000) hn.toNat 18 a.toNat 6 d.toNat 0)
  | .srnd h g d => some (e2 (encodeHd h 0x60600000) g.toNat 18 d.toNat 0)
  | .sradd h g a => some (e2 (encodeHd h 0x60700000) g.toNat 18 a.toNat 6)
  | .srld h g a => some (e2 (encodeHd h 0x60800000) g.toNat 18 a.toNat 6)
  | .srst h g a => some (e2 (encodeHd h 0x60900000) g.toNat 18 a.toNat 6)
  | .suni h a d => some (e2 (encodeHd h 0x60A00000) a.toNat 6 d.toNat 0)
  | .sacc h k a => some (e2 (encodeHd h 0x60B00000) k.toNat 17 a.toNat 6)
  | .sqfork h c a d => some (e3 (encodeHd h 0x60C00000) c.toNat 12 a.toNat 6 d.toNat 0)
  | .sqapp h c a d => some (e3 (encodeHd h 0x60D00000) c.toNat 12 a.toNat 6 d.toNat 0)
  | .sqcommit h c a d => some (e3 (encodeHd h 0x60E00000) c.toNat 12 a.toNat 6 d.toNat 0)
  | .sqtrunc h a d => some (e2 (encodeHd h 0x60F00000) a.toNat 6 d.toNat 0)
  | .sqcur h a d => some (e2 (encodeHd h 0x61000000) a.toNat 6 d.toNat 0)
  | .sqframe h a d => some (e2 (encodeHd h 0x61100000) a.toNat 6 d.toNat 0)
  | .fmtw h a => some (e1 (encodeHd h 0x70000000) a.toNat 6)
  | .fmtr h d => some (e1 (encodeHd h 0x70100000) d.toNat 12)
  | .sysrd h d n => some (e2 (encodeHd h 0x70200000) d.toNat 12 n.toNat 0)
  | .syswr h r n => some (e2 (encodeHd h 0x70300000) r.toNat 12 n.toNat 0)
  | .isaq h d sl => some (e2 (encodeHd h 0x70400000) d.toNat 12 sl.toNat 0)
  | .cyc h d => some (e1 (encodeHd h 0x70500000) d.toNat 12)
  | .trap h c => some (e1 (encodeHd h 0x70600000) c.toNat 0)
  | .eret h => some (encodeHd h 0x70700000)
  | .watch h w a => some (e2 (encodeHd h 0x70800000) w.toNat 18 a.toNat 6)
  | .bkpt h c => some (e1 (encodeHd h 0x70900000) c.toNat 0)
  | .powerOn => none
  | .resetAssert => none
  | .bootImageFetch => none
  | .bootImageTimeout => none
  | .quote => none
  | .loadKeySlot => none
  | .clearKeySlot => none
  | .launch _ => none
  | .suspend _ => none
  | .resume _ => none
  | .tlbinv _ => none
  | .tlbInvalidationComplete => none
  | .retireCore _ => none
  | .coreRetired _ => none
  | .restoreCore _ => none
  | .drainDie _ => none
  | .dieDrained => none
  | .undrainDie _ => none
  | .bypassDie _ => none
  | .updateFirmware _ => none
  | .dump _ => none
  | .clearForeignDumpSlot _ => none
  | .fatalDump _ => none
  | .deviceRegisterWrite _ _ => none
  | .hostRead _ _ _ => none
  | .hostWrite _ _ _ => none
  | .hostCompletion _ => none
  | .loadreq _ _ => none
  | .loadresp _ => none
  | .store _ _ => none
  | .storelast _ _ => none
  | .atomic _ _ => none
  | .atomicEngineApply _ => none
  | .atomresp _ => none
  | .collPacket _ _ => none
  | .redirect _ => none
  | .nack _ => none
  | .ack _ => none
  | .undefinedPacket _ => none
  | .retryBackoffExpiry _ _ _ => none
  | .requestTimeout _ _ _ => none
  | .heartbeatTimeout => none
  | .cxlPortDown _ => none
  | .cxlPortUp _ => none
  | .powerLimitReport _ _ => none
  | .pageWalkComplete _ _ => none
  | .pageMove _ _ _ => none
  | .spareRowRepair _ => none
  | .resultLanding => none
  | .checkpointConfirm => none
  | .storeQueueSend => none
  | .contextSwitch => none
  | .faultReport => none
  | .regionFaultNotify _ => none
  | .moduloKernelCycle => none
  | .segmentPrefetchComplete => none
  | .arrayItemEntry => none
  | .beatSettle => none
  | .edgeRowLanding => none
  | .drainLanding => none
  | .arrayOwnershipEnd => none
  | .bindCoreGroup => none
  | .overlaySwap => none
  | .preload _ => none
  | .contextSave => none
  | .contextRestore _ => none
  | .regionComplete _ => none
  | .dealerRequest => none
  | .gangBarrierComplete _ => none
  | .sequenceUnitOperation => none
  | .copyCommandStart => none
  | .cpycSlotFill _ => none
  | .cbsetTakesEffect _ => none
  | .copyComplete _ => none
  | .gatherEntryWhole _ => none
  | .flagwFlagWrite => none
  | .collEngineStart _ => none
  | .cipherBlockReady _ => none
  | .waitfReload => none
  | .waitfDeadline => none
  | .cycleChargeReport => none
  | .segmentFetchComplete => none
  | .heartbeat => none

end Sys2Proof
end

