-- ==== Sys2Proof/Machine/Num.lean ====
section
/-! DEFINITION. Number formats, exact arithmetic and rounding (05_numbers, R87 to R110). -/

namespace Sys2Proof.Machine

/-! ### Flags (R104) -/

def fNV : Flags := 1
def fDZ : Flags := 2
def fOF : Flags := 4
def fUF : Flags := 8
def fNX : Flags := 16
def fSA : Flags := 32

/-! ### FMT (R87) -/

def fmtVF (f : Word) (cl : Bool) : Nat := if cl then wbits f 7 4 else wbits f 3 0
def fmtMA (f : Word) : Nat := wbits f 11 8
def fmtMB (f : Word) : Nat := wbits f 15 12
def fmtMC (f : Word) : Nat := wbits f 19 16
def fmtRM (f : Word) : Nat := wbits f 22 20
def fmtDAZ (f : Word) : Bool := f.getLsbD 23
def fmtFTZ (f : Word) : Bool := f.getLsbD 24
def fmtSAT (f : Word) : Bool := f.getLsbD 25

/-- FMTW accepts a value (R88); a segment without F0 treats codes 5 and 6 as reserved (R219). -/
def fmtLegal (f : Word) (f0 : Bool) : Bool :=
  let ok (c : Nat) : Bool := decide (c ≠ 15) && (f0 || (decide (c ≠ 5) && decide (c ≠ 6)))
  decide (wbits f 63 26 = 0) && decide (fmtRM f ≤ 4) && ok (fmtVF f false) && ok (fmtVF f true) && ok (fmtMA f) && ok (fmtMB f)
    && ok (fmtMC f)

/-! ### Formats (R88 to R91, R98) -/

/-- Element bits of a format code. -/
def elemBits (c : Nat) : Nat :=
  match c with
  | 7 => 64
  | 0 | 8 | 14 => 32
  | 1 | 2 | 9 => 16
  | 3 | 4 | 5 | 10 | 12 => 8
  | _ => 4

def isFloat (c : Nat) : Bool := decide (c ≤ 4) || decide (c = 7)
def isSInt (c : Nat) : Bool := decide (8 ≤ c) && decide (c ≤ 11)
def isUInt (c : Nat) : Bool := decide (c = 12) || decide (c = 13)
def isInt (c : Nat) : Bool := isSInt c || isUInt c
def isDX (c : Nat) : Bool := decide (c = 5) || decide (c = 6)

/-- Exponent width, fraction width and bias (R89). -/
def expBits (c : Nat) : Nat := match c with | 0 | 1 => 8 | 2 | 4 => 5 | 3 => 4 | _ => 11
def fracBits (c : Nat) : Nat := match c with | 0 => 23 | 1 => 7 | 2 => 10 | 3 => 3 | 4 => 2 | _ => 52
def bias (c : Nat) : Int := 2 ^ (expBits c - 1) - 1

/-- The canonical NaN (R91). -/
def nanBits (c : Nat) : Nat :=
  if c = 3 then 0x7F else (2 ^ expBits c - 1) * 2 ^ fracBits c + 2 ^ (fracBits c - 1)

/-- An infinity of a format that has them (R91). -/
def infBits (c : Nat) (neg : Bool) : Nat :=
  (if neg then 2 ^ (elemBits c - 1) else 0) + (2 ^ expBits c - 1) * 2 ^ fracBits c

/-- The largest finite value (R89, R90). -/
def maxBits (c : Nat) (neg : Bool) : Nat :=
  (if neg then 2 ^ (elemBits c - 1) else 0) + (if c = 3 then 0x7E else (2 ^ expBits c - 1) * 2 ^ fracBits c - 1)

def zeroBits (c : Nat) (neg : Bool) : Nat := if neg then 2 ^ (elemBits c - 1) else 0

/-- The number an element holds, with subnormals read as zero under DAZ (R89, R90, R96, R98). -/
def toExt (c : Nat) (daz : Bool) (x : Nat) : Ext :=
  if isFloat c then
    let F := fracBits c
    let E := expBits c
    let neg := x.testBit (E + F)
    let e := x >>> F % 2 ^ E
    let f := x % 2 ^ F
    if e = 2 ^ E - 1 ∧ (c ≠ 3 ∨ f = 7) then
      if c = 3 then .nan false
      else if f = 0 then .inf neg
      else .nan (!f.testBit (F - 1))
    else if e = 0 then .fin neg (if daz then 0 else f) (1 - bias c - F)
    else .fin neg (2 ^ F + f) (e - bias c - F)
  else if isUInt c then .fin false (x % 2 ^ elemBits c) 0
  else
    let v := sextN x (elemBits c)
    .fin (decide (v < 0)) v.natAbs 0

/-! ### Rounding (R92, R95, R96) -/

/-- m / 2^sh rounded to an integer under a mode, and whether it is inexact. -/
def roundShift (rm : Nat) (neg : Bool) (m sh : Nat) : Nat × Bool :=
  let q := m >>> sh
  let r := m % 2 ^ sh
  if r = 0 then (q, false)
  else
    let half := 2 ^ (sh - 1)
    let up : Bool :=
      match rm with
      | 0 => decide (half < r) || (decide (r = half) && q.testBit 0)
      | 1 => false
      | 2 => neg
      | 3 => !neg
      | _ => decide (half ≤ r)
    (if up then q + 1 else q, true)

/-- m × 2^e rounded to a multiple of 2^q, in units of 2^q. -/
def quantum (rm : Nat) (neg : Bool) (m : Nat) (e q : Int) : Nat × Bool :=
  if q ≤ e then (m <<< (e - q).toNat, false) else roundShift rm neg m (q - e).toNat

/-- The element for a finite overflow (R92). -/
def overflow (c rm : Nat) (sat neg : Bool) : Nat :=
  let toInf := decide (rm = 0) || decide (rm = 4) || (decide (rm = 2) && neg) || (decide (rm = 3) && !neg)
  if !toInf then maxBits c neg
  else if (c = 3 ∨ c = 4) ∧ sat then maxBits c neg
  else if c = 3 then nanBits c
  else infBits c neg

/-- round(x, fmt, rm) with SAT and FTZ, and the flags it raises (R92, R96). A NaN raises nothing here. -/
def roundTo (c rm : Nat) (sat ftz : Bool) (x : Ext) : Nat × Flags :=
  let F := fracBits c
  match x with
  | .nan _ => (nanBits c, 0)
  | .inf neg =>
    if c = 3 then (if sat then (maxBits c neg, fOF ||| fNX) else (nanBits c, fNV)) else (infBits c neg, 0)
  | .fin neg m e =>
    if m = 0 then (zeroBits c neg, 0)
    else
      let top : Int := (m.log2 : Int) + e
      let q := top - F
      let (r, nx) := quantum rm neg m e q
      -- value after step 1 is r × 2^q with 2^F ≤ r ≤ 2^(F+1)
      let top' : Int := if r = 2 ^ (F + 1) then top + 1 else top
      let emin := 1 - bias c
      let maxTop : Int := if c = 3 then 8 else bias c
      let past := decide (maxTop < top') || (decide (c = 3) && decide (top' = 8) && decide (r = 15))
      if past then (overflow c rm sat neg, fOF ||| fNX)
      else if top' < emin then
        let (t, tnx) := quantum rm neg m e (emin - F)
        if ftz ∧ t ≠ 0 ∧ t < 2 ^ F then (zeroBits c neg, fUF ||| fNX)
        else (zeroBits c neg + t, if tnx then fUF ||| fNX else 0)
      else
        let fr := if r = 2 ^ (F + 1) then 0 else r - 2 ^ F
        (zeroBits c neg + (top' + bias c).toNat * 2 ^ F + fr, if nx then fNX else 0)

/-- Rounding as an FMT value asks. -/
def roundFmt (f : Word) (c : Nat) (x : Ext) : Nat × Flags := roundTo c (fmtRM f) (fmtSAT f) (fmtFTZ f) x

/-! ### Exact arithmetic (R93, R94) -/

def Ext.isNan : Ext → Bool
  | .nan _ => true
  | _ => false

def Ext.isSig : Ext → Bool
  | .nan s => s
  | _ => false

def Ext.isZero : Ext → Bool
  | .fin _ m _ => decide (m = 0)
  | _ => false

def Ext.isNeg : Ext → Bool
  | .fin n _ _ => n
  | .inf n => n
  | .nan _ => false

def Ext.negate : Ext → Ext
  | .fin n m e => .fin (!n) m e
  | .inf n => .inf (!n)
  | x => x

/-- Multiplication by a power of two. -/
def Ext.scale (x : Ext) (k : Int) : Ext :=
  match x with
  | .fin n m e => .fin n m (e + k)
  | y => y

/-- The invalid flag of a signalling source (R91). -/
def sigFlag (x : Ext) : Flags := if x.isSig then fNV else 0

/-- An exact product (R91, R94). -/
def extMul (a b : Ext) : Ext × Flags :=
  match a, b with
  | .nan s, y => (.nan false, if s || y.isSig then fNV else 0)
  | _, .nan s => (.nan false, if s then fNV else 0)
  | .inf n, .inf k => (.inf (n != k), 0)
  | .inf n, .fin k m _ => if m = 0 then (.nan false, fNV) else (.inf (n != k), 0)
  | .fin n m _, .inf k => if m = 0 then (.nan false, fNV) else (.inf (n != k), 0)
  | .fin n m e, .fin k m' e' => (.fin (n != k) (m * m') (e + e'), 0)

/-- The signed value of a finite number in units of 2^q, q at most its exponent. -/
def Ext.units (q : Int) : Ext → Int
  | .fin n m e => let v : Int := m <<< (e - q).toNat; if n then -v else v
  | _ => 0

/-- The least exponent of the finite terms. -/
def minExp (xs : List Ext) : Int :=
  match xs.filterMap (fun x => match x with | .fin _ m e => if m = 0 then none else some e | _ => none) with
  | [] => 0
  | e :: es => es.foldl min e

/-- An exact sum of terms with the zero sign and special cases of R94. -/
def extSum (rm : Nat) (xs : List Ext) : Ext × Flags :=
  let sig := xs.any Ext.isSig
  let pinf := xs.any fun x => match x with | .inf n => !n | _ => false
  let ninf := xs.any fun x => match x with | .inf n => n | _ => false
  let fl : Flags := if sig || (pinf && ninf) then fNV else 0
  if xs.any Ext.isNan || (pinf && ninf) then (.nan false, fl)
  else if pinf then (.inf false, fl)
  else if ninf then (.inf true, fl)
  else
    let q := minExp xs
    let t : Int := xs.foldl (fun a x => a + x.units q) 0
    if t = 0 then (.fin (xs.all Ext.isNeg && xs.all Ext.isZero || decide (rm = 2)) 0 q, fl)
    else (.fin (decide (t < 0)) t.natAbs q, fl)

/-- Exact order of two numbers that are not NaN; −0 equals +0 (R103). -/
def extCmp (a b : Ext) : Ordering :=
  match a, b with
  | .inf n, .inf k => if n = k then .eq else if n then .lt else .gt
  | .inf n, _ => if n then .lt else .gt
  | _, .inf k => if k then .gt else .lt
  | x, y =>
    let q := minExp [x, y]
    let u (z : Ext) : Int := if z.isZero then 0 else z.units q
    compare (u x) (u y)

/-- IEEE minimum or maximum as a number, and its flag (R103). -/
def extMinMax (mx : Bool) (a b : Ext) : Ext × Flags :=
  if a.isNan || b.isNan then (.nan false, if a.isSig || b.isSig then fNV else 0)
  else
    let less : Bool := match extCmp a b with
      | .lt => true
      | .gt => false
      | .eq => a.isNeg && !b.isNeg
    (if less != mx then a else b, 0)

/-! ### Integers (R99) -/

/-- The least and greatest value of an integer format. -/
def intMin (c : Nat) : Int := if isUInt c then 0 else -(2 ^ (elemBits c - 1))
def intMax (c : Nat) : Int := if isUInt c then 2 ^ elemBits c - 1 else 2 ^ (elemBits c - 1) - 1

/-- The value of an integer element. -/
def intOf (c x : Nat) : Int := if isUInt c then (x % 2 ^ elemBits c : Int) else sextN x (elemBits c)

/-- An exact integer reduced to a format: wrapped, or clamped with SA. -/
def reduceInt (c : Nat) (sat : Bool) (v : Int) : Nat × Flags :=
  if sat then
    let w := max (intMin c) (min (intMax c) v)
    (wrap w (elemBits c), if w = v then 0 else fSA)
  else (wrap v (elemBits c), 0)

/-- The integer value of an exact integer-valued number. -/
def Ext.toInt : Ext → Int
  | .fin n m e => let v : Int := if 0 ≤ e then m <<< e.toNat else m >>> (-e).toNat; if n then -v else v
  | _ => 0

/-- A finite number rounded to an integer under a mode, and whether it was inexact. -/
def roundInt (rm : Nat) (x : Ext) : Int × Bool :=
  match x with
  | .fin n m e => let (r, nx) := quantum rm n m e 0; (if n then -(r : Int) else r, nx)
  | _ => (0, false)

/-- Floating to integer of `n` bits, signed or not: clamped, NaN to 0 (R100, R235). -/
def floatToInt (rm : Nat) (lo hi : Int) (x : Ext) : Int × Flags :=
  match x with
  | .nan _ => (0, fNV)
  | .inf n => (if n then lo else hi, fNV)
  | y =>
    let (v, nx) := roundInt rm y
    if v < lo then (lo, fNV) else if hi < v then (hi, fNV) else (v, if nx then fNX else 0)

/-- An integer as a number. -/
def ofInt (v : Int) : Ext := .fin (decide (v < 0)) v.natAbs 0

/-! ### One element of one operation -/

/-- Round or reduce an exact result to a format under FMT (R92, R99). -/
def finish (f : Word) (c : Nat) (x : Ext) : Nat × Flags :=
  if isInt c then reduceInt c (fmtSAT f) x.toInt else roundFmt f c x

/-- An element read as a source under FMT. -/
def src (f : Word) (c x : Nat) : Ext := toExt c (fmtDAZ f) x

/-- The sum of exact terms rounded under FMT. -/
def sumTo (f : Word) (c : Nat) (ts : List (Ext × Flags)) : Nat × Flags :=
  let (x, fl) := extSum (fmtRM f) (ts.map (·.1))
  let (r, fl') := finish f c x
  (r, ts.foldl (fun a t => a ||| t.2) (fl ||| fl'))

def elAdd (f : Word) (c a b : Nat) : Nat × Flags := sumTo f c [(src f c a, 0), (src f c b, 0)]
def elSub (f : Word) (c a b : Nat) : Nat × Flags := sumTo f c [(src f c a, 0), ((src f c b).negate, 0)]
/-- A product alone keeps the sign of its factors when it is zero (R94). -/
def elMul (f : Word) (c a b : Nat) : Nat × Flags :=
  let (x, fl) := extMul (src f c a) (src f c b)
  let (r, fl') := finish f c x
  (r, fl ||| fl')
/-- a × b + d, rounded once (R93). -/
def elFma (f : Word) (c a b d : Nat) : Nat × Flags := sumTo f c [extMul (src f c a) (src f c b), (src f c d, 0)]
/-- d − a × b, rounded once. -/
def elFms (f : Word) (c a b d : Nat) : Nat × Flags :=
  let (p, fl) := extMul (src f c a) (src f c b)
  sumTo f c [(p.negate, fl), (src f c d, 0)]

/-- Minimum or maximum of two elements (R103) with FTZ (R96); integers compare by value. -/
def elMinMax (f : Word) (mx : Bool) (c a b : Nat) : Nat × Flags :=
  if isInt c then
    let x := intOf c a
    let y := intOf c b
    (wrap (if mx then max x y else min x y) (elemBits c), 0)
  else
    let (r, fl) := extMinMax mx (src f c a) (src f c b)
    let (v, g) := roundTo c 0 false (fmtFTZ f) r
    (v, fl ||| g)

/-- The compare kinds of VCMP and FCMP. -/
inductive Rel where
  | eq | ne | lt | ge | le | gt | un | ord
  deriving DecidableEq, Repr

/-- A floating compare and its flag (R103, R236, R259). -/
def extRel (r : Rel) (a b : Ext) : Bool × Flags :=
  let un := a.isNan || b.isNan
  let sig : Flags := if a.isSig || b.isSig then fNV else 0
  let any : Flags := if un then fNV else 0
  let o := extCmp a b
  match r with
  | .eq => (!un && decide (o = .eq), sig)
  | .ne => (un || decide (o ≠ .eq), sig)
  | .lt => (!un && decide (o = .lt), any)
  | .ge => (!un && decide (o ≠ .lt), any)
  | .le => (!un && decide (o ≠ .gt), any)
  | .gt => (!un && decide (o = .gt), any)
  | .un => (un, sig)
  | .ord => (!un, sig)

/-! ### Conversions (R100) -/

/-- One element converted between two formats that VCVT accepts. Integers of one width convert as to a narrower format, clamped under SAT or cut to
their bits, and floats of one width round by RM (DESIGN CHOICE, log entry 59: the table of R100 names wider and narrower alone). -/
def elCvt (f : Word) (cs cd x : Nat) : Nat × Flags :=
  let s := src f cs x
  if isFloat cs && isFloat cd then
    let (r, fl) := roundFmt f cd s
    (r, fl ||| sigFlag s)
  else if isFloat cs then
    let (v, fl) := floatToInt (fmtRM f) (intMin cd) (intMax cd) s
    (wrap v (elemBits cd), fl)
  else if isFloat cd then roundFmt f cd (ofInt (intOf cs x))
  else if elemBits cs < elemBits cd then (wrap (intOf cs x) (elemBits cd), 0)
  else reduceInt cd (fmtSAT f) (intOf cs x)

/-! ### DX blocks (R101, R102) -/

/-- Fraction bits and largest magnitude of a DX format. -/
def dxF (c : Nat) : Nat := if c = 5 then 5 else 1
def dxMax (c : Nat) : Nat := if c = 5 then 63 else 3

/-- The value of a DX element under its block's exponents (R101). -/
def dxVal (c el lo hi : Nat) : Ext :=
  if lo = 0xFF ∨ hi = 0xFF then .nan false
  else
    let sel := if c = 5 then el.testBit 7 else el.testBit 3
    let sg := if c = 5 then el.testBit 6 else el.testBit 2
    let m := if c = 5 then el % 64 else el % 4
    .fin sg m ((if sel then (hi : Int) else lo) - 127 - dxF c)

/-- rne(|x| × 2^(127 + f − e)) (R102). -/
def dxQ (c : Nat) (x : Ext) (e : Nat) : Nat :=
  match x with
  | .fin _ m k => (quantum 0 false m (k + 127 + dxF c - e) 0).1
  | _ => 0

/-- ||x| − m × 2^(e − 127 − f)| in units of 2^u, u below every exponent in play. -/
def dxErr (c : Nat) (x : Ext) (m e : Nat) (u : Int) : Nat :=
  match x with
  | .fin _ v k =>
    let a : Int := v <<< (k - u).toNat
    let b : Int := m <<< ((e : Int) - 127 - dxF c - u).toNat
    (a - b).natAbs
  | _ => 0

/-- The choice of R102 for one element: selector hi, magnitude, error. -/
def dxChoose (c : Nat) (u : Int) (hi lo : Nat) (x : Ext) : Bool × Nat × Nat :=
  let mh := min (dxQ c x hi) (dxMax c)
  let eh := dxErr c x mh hi u
  let ml := dxQ c x lo
  let el := dxErr c x ml lo u
  if ml ≤ dxMax c ∧ el ≤ eh then (false, ml, el) else (true, mh, eh)

/-- The least e in 0 to 254 with q(M, e) ≤ mm. -/
def dxLeast (c : Nat) (x : Ext) : Nat → Nat → Option Nat
  | 0, _ => none
  | n + 1, e => if dxQ c x e ≤ dxMax c then some e else dxLeast c x n (e + 1)

/-- The larger magnitude of two finite numbers. -/
def magMax (a b : Ext) : Ext :=
  let ab (z : Ext) : Ext := match z with | .fin _ m e => .fin false m e | w => w
  if extCmp (ab a) (ab b) = .lt then b else a

/-- The element bits of a DX format. -/
def dxElem (c : Nat) (sel sg : Bool) (m : Nat) : Nat :=
  if c = 5 then sel.toNat * 128 + sg.toNat * 64 + m else sel.toNat * 8 + sg.toNat * 4 + m

/-- The quantiser of R102: E_lo, E_hi, the elements, the flags. -/
def quantise (c : Nat) (xs : List Ext) : Nat × Nat × List Nat × Flags :=
  if xs.any fun x => x.isNan || (match x with | .inf _ => true | _ => false) then
    (0xFF, 0xFF, xs.map fun _ => 0,
      if xs.any fun x => x.isSig || (match x with | .inf _ => true | _ => false) then fNV else 0)
  else
    let M := xs.foldl magMax (.fin false 0 0)
    if M.isZero then (0, 0, xs.map fun x => dxElem c false x.isNeg 0, 0)
    else
      let u := min (minExp xs) (-127 - dxF c)
      let (hi, ov) := match dxLeast c M 255 0 with | some e => (e, (0 : Flags)) | none => (254, fOF)
      let cost (lo : Nat) : Nat := (xs.map fun x => (dxChoose c u hi lo x).2.2).sum
      -- larger candidates come first, so a later one replaces only on a strictly smaller cost
      let start := hi - 15
      let best := ((rangeFrom start (hi - start + 1)).reverse).foldl
        (fun (b : Nat × Nat) lo => let k := cost lo; if k < b.2 then (lo, k) else b) (hi, cost hi)
      let ch := xs.map fun x => (x, dxChoose c u hi best.1 x)
      let nx : Flags := if 0 < best.2 then fNX else 0
      let uf : Flags := if ch.any fun p => !p.1.isZero && decide (p.2.2.1 = 0) then fUF else 0
      (best.1, hi, ch.map fun p => dxElem c p.2.1 p.1.isNeg p.2.2.1, ov ||| nx ||| uf)

/-! ### Reductions and scans (R108, R109) -/

/-- The node operation: 0 sum, 1 min, 2 max. -/
def redNode (f : Word) (c op a b : Nat) : Nat × Flags :=
  match op with
  | 0 => elAdd f c a b
  | 1 => elMinMax f false c a b
  | _ => elMinMax f true c a b

/-- The result when every lane is absent. -/
def redIdent (c op : Nat) : Nat :=
  match op with
  | 0 => 0
  | 1 => if isInt c then wrap (intMax c) (elemBits c) else if c = 3 then 0x7E else infBits c false
  | _ => if isInt c then wrap (intMin c) (elemBits c) else if c = 3 then 0xFE else infBits c true

/-- One level of the reduction tree. -/
def redLevel (f : Word) (c op : Nat) : List (Option Nat) → List (Option Nat) × Flags
  | a :: b :: t =>
    let (r, fl) := redLevel f c op t
    match a, b with
    | some x, some y => let (v, g) := redNode f c op x y; (some v :: r, fl ||| g)
    | some x, none => (some x :: r, fl)
    | none, y => (y :: r, fl)
  | l => (l, 0)

/-- The reduction tree, a level at a time. -/
def redTree (f : Word) (c op : Nat) : Nat → List (Option Nat) → Nat × Flags
  | 0, l => ((nth none l 0).getD (redIdent c op), 0)
  | n + 1, l =>
    match l with
    | [] => (redIdent c op, 0)
    | [x] => (x.getD (redIdent c op), 0)
    | l => let (l', fl) := redLevel f c op l; let (v, fl') := redTree f c op n l'; (v, fl ||| fl')

/-- VSCAN (R109): running results; lanes that lead absent take the identity, and pass it on to the first node. -/
def scanFrom (f : Word) (c op : Nat) (y : Option Nat) : List (Option Nat) → List Nat × Flags
  | [] => ([], 0)
  | x :: t =>
    let (v, g) : Option Nat × Flags := match y, x with
      | some a, some b => let (r, fl) := redNode f c op a b; (some r, fl)
      | some a, none => (some a, 0)
      | none, z => (some (z.getD (redIdent c op)), 0)
    let (r, fl) := scanFrom f c op v t
    (v.getD (redIdent c op) :: r, g ||| fl)

end Sys2Proof.Machine
end

