-- ==== Sys2Proof/Machine/Ops.lean ====
section
/-! DEFINITION. The named operations over places, registers, results, faults and withheld effects, which every meaning shares. -/

namespace Sys2Proof.Machine

/-- What a meaning answers. -/
abbrev Out := Host.Outcome State Fault Refusal

/-! ### Places (R11, R15) -/

/-- The number of a core in the domain. -/
def locKey (l : Loc) : Nat := (l.pkg * 16 + l.die) * 32 + l.core
/-- The place of a core by its number. -/
def keyLoc (n : Nat) : Loc := ⟨n / 512, n / 32 % 16, n % 32⟩
/-- The number of a die in the domain. -/
def dieKey (pkg die : Nat) : Nat := pkg * 16 + die

def State.coreAt (s : State) (l : Loc) : Core := tget Core.reset s.cores (locKey l)
def State.modCoreAt (s : State) (l : Loc) (f : Core → Core) : State := { s with cores := tmod Core.reset s.cores (locKey l) f }
/-- The core in focus. -/
def State.core (s : State) : Core := s.coreAt s.focus
def State.modCore (s : State) (f : Core → Core) : State := s.modCoreAt s.focus f

def Core.ctx (k : Core) (c : Nat) : Ctx := tget Ctx.reset k.ctxs c
def Core.modCtx (k : Core) (c : Nat) (f : Ctx → Ctx) : Core := { k with ctxs := tmod Ctx.reset k.ctxs c f }
/-- The context that the current move acts for. -/
def State.ctx (s : State) : Ctx := s.core.ctx s.sub
def State.modCtx (s : State) (f : Ctx → Ctx) : State := s.modCore fun k => k.modCtx s.sub f
def State.ctxAt (s : State) (l : Loc) (c : Nat) : Ctx := (s.coreAt l).ctx c
def State.modCtxAt (s : State) (l : Loc) (c : Nat) (f : Ctx → Ctx) : State := s.modCoreAt l fun k => k.modCtx c f

def State.dieAt (s : State) (p d : Nat) : Die := tget Die.reset s.dies (dieKey p d)
def State.modDieAt (s : State) (p d : Nat) (f : Die → Die) : State := { s with dies := tmod Die.reset s.dies (dieKey p d) f }
/-- The die in focus. -/
def State.die (s : State) : Die := s.dieAt s.focus.pkg s.focus.die
def State.modDie (s : State) (f : Die → Die) : State := s.modDieAt s.focus.pkg s.focus.die f

/-- The focus core's cycle (R330). -/
def State.cyc (s : State) : Nat := s.core.cycle

def Ctx.onRegs (c : Ctx) (f : Regs → Regs) : Ctx := { c with regs := f c.regs }
def Ctx.onPipe (c : Ctx) (f : Pipe → Pipe) : Ctx := { c with pipe := f c.pipe }
def Ctx.onQ (c : Ctx) (f : Queues → Queues) : Ctx := { c with q := f c.q }
def Ctx.onSys (c : Ctx) (f : Sys → Sys) : Ctx := { c with sys := f c.sys }
def Ctx.onCtl (c : Ctx) (f : Ctl → Ctl) : Ctx := { c with ctl := f c.ctl }
def State.modPipe (s : State) (f : Pipe → Pipe) : State := s.modCtx fun c => c.onPipe f
def State.modQ (s : State) (f : Queues → Queues) : State := s.modCtx fun c => c.onQ f
def State.modRegs (s : State) (f : Regs → Regs) : State := s.modCtx fun c => c.onRegs f
def State.modSys (s : State) (f : Sys → Sys) : State := s.modCtx fun c => c.onSys f
def State.modCtl (s : State) (f : Ctl → Ctl) : State := s.modCtx fun c => c.onCtl f
def State.modArr (s : State) (f : Arr → Arr) : State := s.modCore fun k => { k with arr := f k.arr }

/-- A new operation in flight, to act at a place (log entry 4). -/
def State.post (s : State) (l : Loc) (c : Nat) (i : Instr) : State := { s with todo := s.todo ++ [⟨l, c, i⟩] }

/-! ### Free values (R3, log entry 3) -/

/-- An undefined value of `w` bits. -/
def State.free (s : State) (tag w : Nat) : Nat := Config.free s.draw tag % 2 ^ w

/-! ### Registers -/

def RegVal.num : RegVal → Nat
  | .bits n => n
  | _ => 0

/-- The value of a register as the undo log names it (R81). -/
def Regs.get (r : Regs) : RegId → RegVal
  | .s n => .bits (tget 0 r.s n).toNat
  | .p n => .bits (tget false r.p n).toNat
  | .v false n => .bits (tget 0 r.v n).toNat
  | .v true n => .bits (tget 0 r.w n).toNat
  | .k false n => .bits (tget 0 r.vk n).toNat
  | .k true n => .bits (tget 0 r.wk n).toNat
  | .tm n => .bits (tget 0 r.tm n).toNat
  | .hand n => .hand (tget [] r.hand n)
  | .gen n => .gen (tget Gen.reset r.gen n)
  | .cbrp n => .bits (tget CBuf.reset r.cb n).rp
  | .lvl n => .lvl (tget Level.reset r.lvl n)
  | .base => .bits r.base
  | .fmt => .fmt r.fmt r.fmtq
  | .zc => .bits r.zc

/-- The register file with one register written. A value of another kind writes nothing. -/
def Regs.put (r : Regs) (i : RegId) (v : RegVal) : Regs :=
  match i, v with
  | .s n, .bits x => { r with s := tset r.s n (BitVec.ofNat 64 x) }
  | .p n, .bits x => { r with p := tset r.p n (decide (x % 2 = 1)) }
  | .v false n, .bits x => { r with v := tset r.v n (BitVec.ofNat 1024 x) }
  | .v true n, .bits x => { r with w := tset r.w n (BitVec.ofNat 1024 x) }
  | .k false n, .bits x => { r with vk := tset r.vk n (BitVec.ofNat 256 x) }
  | .k true n, .bits x => { r with wk := tset r.wk n (BitVec.ofNat 256 x) }
  | .tm n, .bits x => { r with tm := tset r.tm n (BitVec.ofNat 1024 x) }
  | .tm n, .orBit x => { r with tm := tmod 0 r.tm n (· ||| BitVec.ofNat 1024 x) }
  | .hand n, .hand h => { r with hand := tset r.hand n h }
  | .gen n, .gen g => { r with gen := tset r.gen n g }
  | .cbrp n, .bits x => { r with cb := tmod CBuf.reset r.cb n fun b => { b with rp := x } }
  | .lvl n, .lvl l => { r with lvl := tset r.lvl n l }
  | .base, .bits x => { r with base := x }
  | .fmt, .fmt f q => { r with fmt := f, fmtq := q }
  | .zc, .bits x => { r with zc := x }
  | _, _ => r

/-- Registers that discard writes: s0, p0, vk0, wk0, tm0 (R208). -/
def RegId.discards : RegId → Bool
  | .s n => n == 0
  | .p n => n == 0
  | .k _ n => n == 0
  | .tm n => n == 0
  | _ => false

/-- A number for each register, which tags its free values. -/
def RegId.tag : RegId → Nat
  | .s n => 16 * n
  | .p n => 16 * n + 1
  | .v false n => 16 * n + 2
  | .v true n => 16 * n + 3
  | .k false n => 16 * n + 4
  | .k true n => 16 * n + 5
  | .tm n => 16 * n + 6
  | .hand n => 16 * n + 7
  | .gen n => 16 * n + 8
  | .cbrp n => 16 * n + 9
  | .lvl n => 16 * n + 10
  | .base => 11
  | .fmt => 12
  | .zc => 13

/-- A register of undefined value, of the kind that results land in (R368). -/
def Regs.lose (r : Regs) (draw : Nat) (i : RegId) : Regs :=
  let x (n : Nat) : Nat := Config.free draw (2 ^ 46 + 1024 * i.tag + n)
  match i with
  | .hand _ => r.put i (.hand ((List.range 64).map fun n =>
      ⟨BitVec.ofNat 32 (x (4 * n)), BitVec.ofNat 32 (x (4 * n + 1)), BitVec.ofNat 32 (x (4 * n + 2)), (x (4 * n + 3)).testBit 0⟩))
  | .gen _ => r.put i (.gen ⟨BitVec.ofNat 128 (x 0), x 1 % 256, []⟩)
  | _ => r.put i (.bits (x 0))
/-- A register lies in the undefined window of a result still in flight (R61). -/
def Pipe.undefAt (p : Pipe) (cyc : Nat) (r : RegId) : Bool :=
  p.infl.any fun l => decide (l.reg = r) && decide (l.iss < cyc) && decide (cyc < l.due)

/-- A register's bits as a slot reads them in its issue cycle: undefined inside a window (R61). -/
def State.read (s : State) (r : RegId) (w : Nat) : Nat :=
  if s.ctx.pipe.undefAt s.cyc r then s.free r.tag w else (s.ctx.regs.get r).num

/-- s register `n`; s0 reads 0 (R208). -/
def State.rs (s : State) (n : Nat) : Word := if n = 0 then 0 else BitVec.ofNat 64 (s.read (.s n) 64)
/-- p register `n`; p0 reads 1. -/
def State.rp (s : State) (n : Nat) : Bool := if n = 0 then true else decide (s.read (.p n) 1 = 1)
/-- The physical register of a vector name (R72, R144). -/
def physReg (base n : Nat) : Nat := if n < 32 then n else 32 + (n - 32 + base) % 992
/-- The register that a vector name reaches in this cycle. -/
def State.vreg (s : State) (cl : Bool) (n : Nat) : RegId := .v cl (physReg s.ctx.regs.base n)
/-- Vector register by name. -/
def State.rv (s : State) (cl : Bool) (n : Nat) : Nat := s.read (s.vreg cl n) 1024
/-- Mask register; vk0 and wk0 read as all ones (R250). -/
def State.rk (s : State) (cl : Bool) (n : Nat) : Nat := if n = 0 then 2 ^ 256 - 1 else s.read (.k cl n) 256
/-- Tile mask; tm0 is all ones (R74). -/
def State.rtm (s : State) (n : Nat) : Nat := if n = 0 then 2 ^ 1024 - 1 else s.read (.tm n) 1024
/-- Sequencer level `n`. -/
def State.lvl (s : State) (n : Nat) : Level := tget Level.reset s.ctx.regs.lvl n
/-- Circular-buffer handle `n`. -/
def State.cb (s : State) (n : Nat) : CBuf := tget CBuf.reset s.ctx.regs.cb n
def State.modCb (s : State) (n : Nat) (f : CBuf → CBuf) : State :=
  s.modRegs fun r => { r with cb := tmod CBuf.reset r.cb n f }

/-- The FMT in effect for the bundle in issue (R63): the last write whose shadow has passed. -/
def Regs.fmtAt (r : Regs) (ser : Nat) : Word :=
  r.fmtq.foldl (fun f e => if e.2 ≤ ser then e.1 else f) r.fmt
def State.fmt (s : State) : Word := s.ctx.regs.fmtAt s.ctx.pipe.ser

/-! ### Faults found (R355, R364) -/

/-- The virtual address of a slot-word offset of a segment (R220). -/
def codeVa (seg off : Nat) : Nat := seg + 64 + 4 * off
/-- The virtual address of the bundle that issue has come to. -/
def Ctx.bundleVa (c : Ctx) : Nat := codeVa c.ctl.seg c.ctl.off
/-- The virtual address of the first slot of the bundle in issue, merged rows in class order (R71, R329). -/
def Ctx.slotVa (c : Ctx) : Nat := codeVa c.ctl.seg c.cur.head

/-- A fault of the slot in issue is found: the first found of the bundle stands, as slots run in position order (R355). It
reports once every older bundle is past its horizon (R364). -/
def State.raise (s : State) (code : Nat) (faddr : Nat := 0) (watch : Option Nat := none) (defd : Option Nat := none) : State :=
  s.modCtx fun c =>
    match c.pipe.fault with
    | some _ => c
    | none => c.onPipe fun p => { p with
        fault := some ⟨code, p.ser, max s.cyc p.horizon, c.cur.pos, c.slotVa, faddr, watch, defd⟩ }

/-! ### Results (R61, R62, R81) -/

/-- Landing order: cycle, then bundle, then position (R62, R228, R251). -/
def Landing.before (a b : Landing) : Bool :=
  decide (a.due < b.due) || (decide (a.due = b.due) && (decide (a.ser < b.ser) || (decide (a.ser = b.ser) && decide (a.pos < b.pos))))

/-- A result put among those in flight, in landing order. -/
def addLanding (l : Landing) : List Landing → List Landing
  | [] => [l]
  | x :: t => if l.before x then l :: x :: t else x :: addLanding l t

/-- A write of the bundle in issue takes an undo entry: one for each register it writes (R81), none for a register that
discards writes. -/
def Pipe.logs (p : Pipe) (r : RegId) : Bool := !r.discards && !(p.undo.any fun u => u.ser == p.ser && decide (u.reg = r))

/-- The old value of a register enters the undo log (R81). -/
def State.logUndo (s : State) (r : RegId) : State :=
  if s.ctx.pipe.logs r then s.modCtx fun c => c.onPipe fun p => { p with undo := ⟨p.ser, r, c.regs.get r⟩ :: p.undo } else s

/-- The undo log has no room for writes of these registers (R81). -/
def State.undoFull (s : State) (rs : List RegId) : Bool :=
  decide (256 < s.ctx.pipe.undo.length + (rs.filter s.ctx.pipe.logs).length)

/-- A result of the slot in issue: it lands `lat` cycles later in register `r` and raises `flags` in flag register `fl`
(R61, R105). A register that discards writes takes no undo entry, and its flags still land. -/
def State.send (s : State) (lat : Nat) (r : RegId) (v : RegVal) (fl : Nat) (flags : Flags) : State :=
  s.modCtx fun c => c.onPipe fun p =>
    { p with infl := addLanding ⟨s.cyc + lat, s.cyc, p.ser, c.cur.pos, r, v, fl, flags⟩ p.infl }

/-- A result, with its undo entry; without room for the entry it is the execution fault 0x0206 (R81). -/
def State.result (s : State) (lat : Nat) (r : RegId) (v : RegVal) (fl : Nat := 0) (flags : Flags := 0) : State :=
  if s.undoFull [r] then s.raise 0x0206 else (s.logUndo r).send lat r v fl flags

/-- A result in an s register. -/
def State.resultS (s : State) (lat n : Nat) (v : Word) (flags : Flags := 0) : State := s.result lat (.s n) (.bits v.toNat) 0 flags

/-- Two results of one slot, both or none. -/
def State.result2 (s : State) (lat : Nat) (r1 : RegId) (v1 : RegVal) (r2 : RegId) (v2 : RegVal) : State :=
  if s.undoFull [r1, r2] then s.raise 0x0206 else (s.result lat r1 v1).result lat r2 v2

/-- A register written in the issue cycle, with its undo entry (R81). -/
def State.writeNow (s : State) (r : RegId) (v : RegVal) : State :=
  if s.undoFull [r] then s.raise 0x0206 else (s.logUndo r).modRegs fun g => g.put r v

/-- Sticky flags are set (R105); what lands in a cycle is kept until a later one, for a write of that cycle (R328). -/
def Sys.orFlags (y : Sys) (now fl : Nat) (f : Flags) : Sys :=
  if f = 0 then y
  else { y with flg := tmod 0 y.flg fl (· ||| f), fresh := (now, fl, f) :: y.fresh.filter fun e => e.1 == now }
/-- The flags of a register that landed in this cycle (R328). -/
def Sys.landed (y : Sys) (now fl : Nat) : Flags :=
  (y.fresh.filter fun e => e.1 == now && e.2.1 == fl).foldl (fun f e => f ||| e.2.2) 0

/-! ### Withheld effects and checkpoints (R80 to R84) -/

/-- An effect of the slot in issue is withheld; a 257th entry is the execution fault 0x0205 (R82). -/
def State.withhold (s : State) (e : Eff) : State :=
  if 256 ≤ s.ctx.pipe.held.length then s.raise 0x0205
  else s.modCtx fun c => { c with
    pipe := { c.pipe with held := c.pipe.held ++ [⟨c.pipe.ser, c.cur.pos, e, false, c.q.nextId⟩] }
    q := { c.q with nextId := c.q.nextId + 1 } }

/-- Room in the withhold buffer for one more effect. -/
def State.holdFull (s : State) : Bool := decide (256 ≤ s.ctx.pipe.held.length)

/-- The bundle in issue becomes a checkpoint; its end fills in what the checkpoint records (R80). `snap` marks a pre-emption
point (R52). -/
def State.markCkpt (s : State) : State :=
  s.modPipe fun p =>
    if p.cks.any fun k => k.ser == p.ser then p
    else { p with cks := p.cks ++ [{ Ckpt.reset with ser := p.ser, cyc := s.cyc }] }

/-- Checkpoints of other bundles that have not confirmed (R80): with eight, a bundle that needs one more blocks. -/
def State.ckptFull (s : State) : Bool :=
  decide (8 ≤ (s.ctx.pipe.cks.filter fun k => k.ser != s.ctx.pipe.ser).length)

/-! ### Timeline counters (R165 to R167) -/

/-- An operation takes its number from a counter: the state and the number. -/
def State.takeNum (s : State) (ctr : Nat) : State × Nat :=
  let n := tget 0 s.ctx.q.tl ctr + 1
  (s.modQ fun q => { q with tl := tset q.tl ctr n, tlOut := q.tlOut ++ [(ctr, n)] }, n)

/-- An operation completes for its counter (R166). -/
def Queues.complete (q : Queues) (ctr n : Nat) : Queues := { q with tlOut := q.tlOut.filter fun e => e != (ctr, n) }

/-- done(c): the largest m such that every operation numbered 1 to m has completed (R167). -/
def Queues.doneUpTo (q : Queues) (ctr : Nat) : Nat :=
  (q.tlOut.filter fun e => e.1 == ctr).foldl (fun m e => min m (e.2 - 1)) (tget 0 q.tl ctr)

/-- A fresh order number of the context. -/
def State.takeId (s : State) : State × Nat := (s.modQ fun q => { q with nextId := q.nextId + 1 }, s.ctx.q.nextId)

/-- The failure of a numbered operation is on record for the FLAGWs that cover it (R388). -/
def Queues.noteFailed (q : Queues) (d : Deferred) : Queues := if d.ctr < 5 then { q with failed := q.failed ++ [d] } else q
/-- A failure is kept until a bundle reports it (R356). -/
def Queues.defer (q : Queues) (d : Deferred) : Queues := { q.noteFailed d with deferred := q.deferred ++ [d] }

/-- Nothing is left of what the context gave to queues and engines. -/
def Queues.idle (q : Queues) : Bool :=
  q.tlOut.isEmpty && q.cmds.isEmpty && q.colls.isEmpty && q.stq.isEmpty && q.flagws.isEmpty && q.lq.isEmpty && q.fiOut.isEmpty

/-- The failure whose operation issued first. -/
def firstOf (l : List Deferred) : Option Deferred :=
  l.foldl (fun b d => match b with | none => some d | some x => if d.ord < x.ord then some d else b) none
/-- The pending failure of the operation that issued first among those a test names. -/
def Queues.firstDeferred (q : Queues) (t : Deferred → Bool) : Option Deferred := firstOf (q.deferred.filter t)

/-- The slot in issue reports a deferred error, which is then no longer pending once delivered (R356). -/
def State.reportDeferred (s : State) (d : Deferred) : State := s.raise d.code d.faddr none (some d.ord)

/-- A fault of the slot's own, if any, or a store or FLAGW known to have failed (R373), whichever code comes first (R355); else the
slot's effect. -/
def State.orDeferred (s : State) (own : Option (Nat × Nat)) (f : State → State) : State :=
  match s.ctx.q.firstDeferred fun d => d.ctr == 5, own with
  | none, none => f s
  | none, some (c, a) => s.raise c a
  | some d, none => s.reportDeferred d
  | some d, some (c, a) => if d.code < c then s.reportDeferred d else s.raise c a

/-- What a checkpoint bundle's response answers: an effect's kind, one slot of each at most in a bundle (R58, R84). -/
def Eff.kind : Eff → Nat
  | .atom .. => 0
  | .deal _ => 1
  | .gbar => 2
  | .taskend => 3
  | .seqop .. => 4
  | .sysw .. => 5
  | .trap .. => 6
  | .eret => 7
  | _ => 8

/-- A checkpoint bundle of R84: its effect is withheld, the bundle becomes a checkpoint, and the next bundle waits for the
response. `own` is a fault that the slot itself has found. TASKEND, GBAR, TRAP, BKPT and ERET take an entry of the withhold buffer too (DESIGN CHOICE, log
entry 74). -/
def State.ckptBundle (s : State) (e : Eff) (own : Option (Nat × Nat) := none) : State :=
  if s.holdFull then s.raise 0x0205
  else s.orDeferred own fun s =>
    ((s.withhold e).markCkpt).modCtx fun c => c.onPipe fun p => { p with wait := p.wait ++ [⟨p.ser, c.slotVa, c.cur.pos, e⟩] }

/-- The response of a kind that the context waits for. -/
def Pipe.waits (p : Pipe) (k : Nat) : Option Wait := p.wait.find? fun w => w.eff.kind == k
/-- The context waits for that response no more. -/
def Pipe.answered (p : Pipe) (k : Nat) : Pipe := { p with wait := p.wait.filter fun w => w.eff.kind != k }

/-! ### Iterations and qualifiers (R68 to R71) -/

/-- A slot-word offset lies in a level's body (R68). -/
def Level.has (l : Level) (off : Nat) : Bool := decide (l.bstart ≤ off) && decide (off ≤ l.bend)

/-- The innermost of the `d` active levels whose body contains an offset. -/
def innermost (r : Regs) (off : Nat) : Nat → Nat → Option Nat
  | 0, _ => none
  | n + 1, j => if (tget Level.reset r.lvl j).has off then some j else innermost r off n (j + 1)

/-- The first set bit of a mask at or after an index, below a bound. -/
def nextBit (m : Wide) (i : Nat) : Nat → Option Nat
  | 0 => none
  | n + 1 => if m.getLsbD i then some i else nextBit m (i + 1) n

/-- The next iteration that a plain level issues at or after `i` (R74). -/
def Level.nextIter (l : Level) (i : Nat) : Option Nat :=
  if l.tiled then nextBit l.mask i (l.trip - i) else if i < l.trip then some i else none

/-- Iteration `i` is the first, and the last, that the level issues (R70). -/
def Level.isFirst (l : Level) (i : Nat) : Bool := decide (l.nextIter 0 = some i)
def Level.isLast (l : Level) (i : Nat) : Bool := decide (l.nextIter (i + 1) = none)

/-- The levels with the iterations that issue is in: ahead of IDX in the delay bundles of a transfer that leaves the nest (R75). -/
def Ctx.runRegs (c : Ctx) : Regs :=
  { c.regs with lvl := c.ctl.ahead.foldl (fun t e => tmod Level.reset t e.1 fun l => { l with idx := e.2 }) c.regs.lvl }

/-- A slot issues as the first, and the last, iteration of its innermost enclosing level (R70, R71). -/
def Ctx.iterEnds (c : Ctx) (sl : Slot) : Bool × Bool :=
  match sl.iter with
  | some (n, N, _) => (decide (n = 0), decide (n + 1 = N))
  | none =>
    match innermost c.regs sl.off c.ctl.depth 0 with
    | some j => let l := tget Level.reset c.runRegs.lvl j; (l.isFirst l.idx, l.isLast l.idx)
    | none => (true, true)

/-- A qualifier lets a slot issue in this iteration (R70). -/
def Ctx.qOk (c : Ctx) (sl : Slot) (q : BitVec 2) : Bool :=
  match q.toNat with
  | 0 => true
  | 1 => (c.iterEnds sl).1
  | 2 => (c.iterEnds sl).2
  | _ => !(c.iterEnds sl).2

/-- The qualifier of the slot in issue lets it issue. -/
def State.qIssues (s : State) (q : BitVec 2) : Bool := s.ctx.qOk s.ctx.cur q

/-- A slot's effect under its qualifier. -/
def slot (q : BitVec 2) (s : State) (f : State → State) : Out := .next (if s.qIssues q then f s else s)

/-- A slot that can block: while it blocks nothing changes (R60). -/
def slotOr (q : BitVec 2) (s : State) (block : State → Bool) (f : State → State) : Out :=
  slot q s fun s => if block s then s else f s

/-- A C slot's effect under its qualifier and guard (R227). -/
def guarded (h : Hd) (g : BitVec 2) (s : State) (f : State → State) : Out :=
  slot h.q s fun s => if s.rp g.toNat then f s else s

/-- The rest of the bundle holds an FMTW that issues (R63). -/
def Ctx.fmtwAhead (c : Ctx) : Bool :=
  c.latch.any fun sl => decide (sl.word / 2 ^ 20 % 64 = 0) && decide (sl.word / 2 ^ 28 % 8 = 7) && c.qOk sl (BitVec.ofNat 2 (sl.word / 2 ^ 26))

/-- The bundle in issue is an FMTW bundle or one of its four shadow bundles (R63). -/
def State.inShadow (s : State) : Bool :=
  s.ctx.fmtwAhead || s.ctx.regs.fmtq.any fun e => decide (s.ctx.pipe.ser < e.2)

/-- IDX of a level as the slot in issue reads it (R71, R246). -/
def State.ridx (s : State) (l : Nat) : Nat :=
  match l, s.ctx.cur.iter with
  | 0, some (_, _, a) => a
  | _, _ => (s.lvl l).idx

/-- A 3-bit i field: 7 is izero (R208). -/
def State.ifield (s : State) (f : BitVec 3) : Nat := if f = 7 then 0 else s.ridx f.toNat

/-! ### Watchpoints (R333) -/

/-- The part of an access that watch `w` of the context matches: the watch and the first byte. -/
def Ctx.watchOf (c : Ctx) (space : Bool) (rd wr : Bool) (a n w : Nat) : Option (Nat × Nat) :=
  let x := tget 0 c.sys.watch w
  if x.getLsbD 63 && (x.getLsbD 58 == space) && ((rd && x.getLsbD 62) || (wr && x.getLsbD 61)) then
    let lo := wbits x 55 6 * 64
    let f := max a lo
    if f < a + n ∧ f < lo + 64 then some (w, f) else none
  else none
/-- The first byte of an access that enabled watches of the context match, and the watch. -/
def Ctx.watchHit (c : Ctx) (space : Bool) (rd wr : Bool) (a n : Nat) : Option (Nat × Nat) :=
  if c.sys.h then none
  else ((List.range 4).filterMap (c.watchOf space rd wr a n)).foldl
    (fun b x => match b with | none => some x | some y => if x.2 < y.2 then some x else some y) none

/-- The slot's effect unless a watch matches its access. -/
def State.watched (s : State) (space rd wr : Bool) (a n : Nat) (f : State → State) : State :=
  match s.ctx.watchHit space rd wr a n with
  | some (w, b) => s.raise 0x0803 b (some w)
  | none => f s

end Sys2Proof.Machine
end

