-- ==== Sys2Proof/Machine/Flags.lean ====
section
/-! DEFINITION. The values and flags of the scalar operations (R99, R229 to R236). -/

namespace Sys2Proof.Machine

/-- A guarded integer instruction: value and flags from the registers at issue, landing in s[D] (R227). -/
def scalarOp (h : Hd) (g : BitVec 2) (d : BitVec 6) (lat : Nat) (s : State) (v : State → Word × Flags) : Out :=
  guarded h g s fun s => s.resultS lat d.toNat (v s).1 (v s).2

/-- A two-operand integer instruction without flags. -/
def intOp (h : Hd) (g : BitVec 2) (d a b : BitVec 6) (lat : Nat) (s : State) (op : Word → Word → Word) : Out :=
  scalarOp h g d lat s fun s => (op (s.rs a.toNat) (s.rs b.toNat), 0)

/-- A division: the dividend rules of R99 and DZ for a zero divisor. -/
def divOp (h : Hd) (g : BitVec 2) (d a b : BitVec 6) (s : State) (op : Word → Word → Word) : Out :=
  scalarOp h g d 12 s fun s => (op (s.rs a.toNat) (s.rs b.toNat), if s.rs b.toNat = 0 then fDZ else 0)

/-- DIVS (R229): toward zero; all ones by zero; −2^63 for −2^63 / −1. -/
def divS (a b : Word) : Word := if b = 0 then BitVec.allOnes 64 else BitVec.ofInt 64 (a.toInt.tdiv b.toInt)
/-- DIVU. -/
def divU (a b : Word) : Word := if b = 0 then BitVec.allOnes 64 else BitVec.ofNat 64 (a.toNat / b.toNat)
/-- REMS: the dividend's sign; the dividend by zero. -/
def remS (a b : Word) : Word := if b = 0 then a else BitVec.ofInt 64 (a.toInt.tmod b.toInt)
/-- REMU. -/
def remU (a b : Word) : Word := if b = 0 then a else BitVec.ofNat 64 (a.toNat % b.toNat)

/-- Leading zero bits, 64 for zero (R230). -/
def clz64 (a : Word) : Nat := if a = 0 then 64 else 63 - a.toNat.log2
/-- One bits among the low `n` bits. -/
def popcount (x : Nat) : Nat → Nat
  | 0 => 0
  | n + 1 => x % 2 + popcount (x / 2) n

/-- The logic operation codes of R208 on one bit. -/
def logic1 (o : BitVec 3) (a b : Bool) : Bool :=
  match o.toNat with
  | 0 => a && b
  | 1 => a || b
  | 2 => a != b
  | 3 => a && !b
  | 4 => a || !b
  | 5 => !(a && b)
  | 6 => !(a || b)
  | _ => a == b

/-- The logic operation codes of R208 on `w` bits. -/
def logicW (o : BitVec 3) (w a b : Nat) : Nat :=
  let M := 2 ^ w - 1
  let x := a % 2 ^ w
  let y := b % 2 ^ w
  match o.toNat with
  | 0 => x &&& y
  | 1 => x ||| y
  | 2 => x ^^^ y
  | 3 => x &&& (M ^^^ y)
  | 4 => x ||| (M ^^^ y)
  | 5 => M ^^^ (x &&& y)
  | 6 => M ^^^ (x ||| y)
  | _ => M ^^^ (x ^^^ y)

/-- The CMP conditions (R232). -/
def cmpCond (c : BitVec 3) (a b : Word) : Bool :=
  match c.toNat with
  | 0 => decide (a = b)
  | 1 => decide (a ≠ b)
  | 2 => decide (a.toInt < b.toInt)
  | 3 => decide (b.toInt ≤ a.toInt)
  | 4 => decide (a.toNat < b.toNat)
  | 5 => decide (b.toNat ≤ a.toNat)
  | 6 => decide (a.toInt ≤ b.toInt)
  | _ => decide (b.toInt < a.toInt)

/-- The FCMP conditions (R236). -/
def fcmpRel (c : BitVec 3) : Rel :=
  match c.toNat with
  | 0 => .eq
  | 1 => .ne
  | 2 => .lt
  | 3 => .ge
  | 4 => .un
  | 5 => .ord
  | 6 => .le
  | _ => .gt

/-- FP32 for P = 0, FP64 for P = 1 (R234). -/
def fpFmt (p : BitVec 1) : Nat := if p = 0 then 0 else 7

/-- The floating source of a scalar register: bits [31:0] for FP32. -/
def fpSrc (p : BitVec 1) (x : Word) : Nat := if p = 0 then x.toNat % 2 ^ 32 else x.toNat

/-- A scalar floating instruction (R234). -/
def floatOp (h : Hd) (d : BitVec 6) (s : State) (v : State → Nat × Flags) : Out :=
  slot h.q s fun s => s.resultS 5 d.toNat (BitVec.ofNat 64 (v s).1) (v s).2

/-- FCVT by its code (R235). -/
def fcvtVal (c : BitVec 3) (f : Word) (a : Word) : Nat × Flags :=
  let f32 := toExt 0 (fmtDAZ f) (a.toNat % 2 ^ 32)
  let f64 := toExt 7 (fmtDAZ f) a.toNat
  let i64 (x : Ext) : Nat × Flags := let (v, fl) := floatToInt (fmtRM f) (-(2 ^ 63)) (2 ^ 63 - 1) x; (wrap v 64, fl)
  let fl (c : Nat) (x : Ext) : Nat × Flags := let (v, g) := roundFmt f c x; (v, g ||| sigFlag x)
  match c.toNat with
  | 0 => fl 7 f32
  | 1 => fl 0 f64
  | 2 => i64 f32
  | 3 => i64 f64
  | 4 => fl 0 (ofInt a.toInt)
  | 5 => fl 7 (ofInt a.toInt)
  | 6 => let (v, g) := floatToInt (fmtRM f) 0 (2 ^ 64 - 1) f64; (wrap v 64, g)
  | _ => fl 7 (ofInt a.toNat)

end Sys2Proof.Machine
end

