-- ==== Sys2Proof/Machine/Operands.lean ====
section
/-! DEFINITION. Operand forms: scratchpad and accumulator-memory addresses, banks, circular buffers, vector widths and lanes. -/

namespace Sys2Proof.Machine

/-! ### Regions and tasks of the context in focus (R44, R48, R51) -/

/-- A region by its block. -/
def State.region? (s : State) (blk : Nat) : Option Region := s.regions.find? fun r => r.blk == blk
def State.modRegion (s : State) (blk : Nat) (f : Region → Region) : State :=
  { s with regions := s.regions.map fun r => if r.blk = blk then f r else r }
/-- The region of the context in focus. -/
def State.myRegion (s : State) : Option Region := match s.ctx.bind with | some b => s.region? b.blk | none => none
/-- The group of a context. -/
def Region.groupAt (r : Region) (l : Loc) : Option Group := r.groups.find? fun g => decide (g.l = l)
/-- The context goes on with another task of its leaf: tasks are left, and its group is not narrowed (R49). -/
def Region.goesOn (r : Region) (l : Loc) : Bool :=
  r.kind == 2 && decide (r.next < r.ntask) && r.state == 2 &&
  match r.groupAt l with | some g => !g.narrowed | none => false
/-- The context's next assignment is settled before its TASKEND: no deals are left, or its group is narrowed. -/
def State.lastTask (s : State) : Bool :=
  match s.ctx.bind, s.myRegion with
  | some b, some r => !b.ended && !r.goesOn s.focus
  | _, _ => false
/-- Mask of the bank groups that the running segment's header leaves free for a preload. -/
def Ctx.leavesFree (c : Ctx) : Nat := match c.half with | some h => h.preload | none => 0
/-- No preload of a bank group for the task that the context is bound to is under way (R51, R397). -/
def Ctx.preDone (c : Ctx) : Bool :=
  match c.preBank, c.bind with | some (blk, n, m), some b => blk != b.blk || decide (m ≤ n) | _, _ => true
/-- What the program reads at a scratchpad address is undefined: a preload may run there (R51). -/
def State.preloading (s : State) (a : Nat) : Bool := s.ctx.leavesFree.testBit (bits a 21 20) && s.lastTask
/-- The undefined bytes of such a read. -/
def State.freeBytes (s : State) (a n : Nat) : List Byte := (rangeFrom a n).map fun x => BitVec.ofNat 8 (s.free (2 ^ 20 + x) 8)

/-! ### Scratchpad addresses and banks (R132 to R136) -/

/-- The effective address of an access of `n` bytes, a power of two: none at or above the limit (R133, R141). -/
def localEA (base : Word) (off n limit : Nat) : Option Nat :=
  let ea := (base.toNat + off) % 2 ^ 64
  if limit ≤ ea then none else some (ea - ea % n)

/-- The swizzle z (R134). -/
def swz (ea z : Nat) : Nat :=
  if z = 0 then ea
  else
    let b := bits ea 9 7
    ea - b * 128 + (b ^^^ bits ea (z + 11) (z + 9)) * 128

/-- The bank of a byte address: group × 8 + bank (R132). -/
def bankOf (a : Nat) : Nat := bits a 21 20 * 8 + bits a 9 7

/-- The half-group of a 512-byte line (R132, R135). -/
def halfGroup (a : Nat) : List Nat := rangeFrom (bankOf (a - a % 512)) 4

/-- All eight banks of a bank group (R135). -/
def groupBanks (g : Nat) : List Nat := rangeFrom (8 * g) 8

/-- No number twice. -/
def noDup : List Nat → Bool
  | [] => true
  | x :: t => !t.contains x && noDup t

/-- The slot claims its banks; none when a bank is taken or needed twice (R136). -/
def State.claim (s : State) (banks : List Nat) : Option State :=
  if noDup banks && !(banks.any fun b => s.ctx.claims.contains b) then
    some (s.modCtx fun c => { c with claims := c.claims ++ banks })
  else none

/-- A slot's scratchpad access of `n` bytes at an address, none at or above the limit: the bank rule, room in the undo log for the
registers it writes, a check of its own, the limit, watches, in the order of their codes (R355), then the effect. -/
def State.access (s : State) (a : Option Nat) (n : Nat) (wr : Bool) (regs : List RegId) (f : State → Nat → State)
    (own : Nat → Option Nat := fun _ => none) : State :=
  match a with
  | none => s.raise (if s.undoFull regs then 0x0206 else 0x020D)
  | some a =>
    match s.claim [bankOf a] with
    | none => s.raise 0x0201
    | some s' =>
      if s.undoFull regs then s.raise 0x0206
      else match own a with
        | some c => s.raise c
        | none => if (s.ctx.watchHit true (!wr) wr a n).isSome then s.watched true (!wr) wr a n id else f s' a

/-- An accumulator-memory access, which meets no bank rule and matches no watch; the copy engine keeps off its row in this cycle (R141). -/
def State.accAccess (s : State) (a : Option Nat) (regs : List RegId) (f : State → Nat → State) : State :=
  match a with
  | none => s.raise (if s.undoFull regs then 0x0206 else 0x020D)
  | some a => f (s.modCtx fun c => { c with claims := c.claims ++ [32 + a / 128] }) a

/-- A slot store of the cycle before wrote a byte: scratchpad addresses, and accumulator-memory addresses from 2^22 (R135, R274). -/
def Core.justStored (k : Core) (a : Nat) : Bool :=
  k.recent.any fun r => decide (r.2.2 + 1 = k.cycle) && decide (r.1 ≤ a) && decide (a < r.1 + r.2.1)
/-- A scratchpad byte as a slot reads it: undefined in the cycle after a slot store to it (R135). -/
def Core.spadByte (k : Core) (draw a : Nat) : Byte :=
  if k.justStored a then
    BitVec.ofNat 8 (Config.free draw (2 ^ 20 + a))
  else Memory.get k.spad a

/-- The bytes of a slot read, which cross no bank group. -/
def State.spadRead (s : State) (a n : Nat) : List Byte :=
  if s.preloading a then s.freeBytes a n else (rangeFrom a n).map fun x => s.core.spadByte s.draw x

/-! ### Accumulator memory (R127, R141) -/

/-- Configuration fields (R122). -/
def cfgFlow (w : Nat) : Nat := bits w 1 0
def cfgQuad (w : Nat) : Bool := bit w 2
def cfgBase (w : Nat) : Nat := bits w 31 19

/-- The rows that queued items will land in, from the configuration and beat count they find (R123, R126). -/
def queuedRows : Nat → Nat → List Item → List Nat
  | _, _, [] => []
  | cfg, n, i :: t =>
    match i.kind with
    | .drain row => row :: queuedRows cfg n t
    | .cfg w => queuedRows w 0 t
    | .beat .. => (if cfgFlow cfg = 0 then [] else [(cfgBase cfg + n) % 8192]) ++ queuedRows cfg (n + 1) t
    | _ => queuedRows cfg n t

/-- An accumulator-memory row awaits a landing that has been issued (R127). -/
def Arr.rowPending (r : Arr) (row : Nat) : Bool :=
  (r.exits.any fun e => decide (e.row = some row)) || (queuedRows r.edge.cfg r.edge.n r.items).contains row

/-- An accumulator-memory byte as a slot reads it: as it stood before the bundle in issue (R61), undefined before a landing
issued for its row (R127) and in the cycle after a slot store to it (R274). -/
def State.accByte (s : State) (a : Nat) : Byte :=
  if s.core.arr.rowPending (a / 128) || s.core.justStored (2 ^ 22 + a) then BitVec.ofNat 8 (s.free (2 ^ 23 + a) 8)
  else match s.core.accOld.find? fun e => e.1 == a with
    | some e => e.2
    | none => Memory.get s.core.accm a

def State.accRead (s : State) (a n : Nat) : List Byte := (rangeFrom a n).map s.accByte

/-! ### Circular buffers (R138 to R140) -/

/-- Slots filled (R139). -/
def CBuf.filled (b : CBuf) : Nat := (b.wp + 2 ^ 32 - b.rp % 2 ^ 32) % 2 ^ 32
/-- Slots free to the producer. -/
def CBuf.free (b : CBuf) : Int := (b.nslot : Int) - ((b.wp + 2 ^ 32 - b.rpc % 2 ^ 32) % 2 ^ 32 : Nat)
/-- The byte address of line `L` relative to a pointer. -/
def CBuf.line (b : CBuf) (ptr L : Nat) : Nat :=
  (b.base + (ptr + L / b.ssize) % b.nslot * b.ssize * 512 + L % b.ssize * 512) % 2 ^ 22
/-- Line `L` of a consumer and whether it is ready. -/
def CBuf.readLine (b : CBuf) (L : Nat) : Nat := b.line b.rp L
def CBuf.readReady (b : CBuf) (L : Nat) : Bool := decide (b.pendSet = 0) && decide (L / b.ssize < b.filled)
/-- Line `L` of the program producer and whether it is ready. -/
def CBuf.writeLine (b : CBuf) (L : Nat) : Nat := b.line (b.wp + b.pendW) L
def CBuf.writeReady (b : CBuf) (L : Nat) : Bool := decide (b.pendSet = 0) && decide (((L / b.ssize : Nat) : Int) < b.free - b.pendW)

/-! ### Vector operands (R212, R213, R250) -/

/-- W′ in bits. -/
def vwidth (h : VHd) : Nat := match h.w.toNat with | 0 => 256 | 1 => 512 | _ => 1024
/-- B is a broadcast s register. -/
def vbcast (h : VHd) : Bool := h.w == 3
/-- The segment that runs declares F0: the block formats DX8 and DX4 are reserved in one that does not (R219). -/
def State.hasF0 (s : State) : Bool := match s.ctx.half with | some g => g.feats.testBit 0 | none => false
/-- The cluster's format. -/
def State.vf (s : State) (cl : Bool) : Nat := fmtVF s.fmt cl
/-- The flag register of a cluster: 1 VFLG0, 2 VFLG1. -/
def vflag (cl : Bool) : Nat := if cl then 2 else 1

/-- The low `n` bits of one register over the rest of another. -/
def mergeLow (old v n : Nat) : Nat := (old >>> n) <<< n ||| v % 2 ^ n

/-- The lanes of operand A. -/
def State.va (s : State) (h : VHd) (a : BitVec 6) (w n : Nat) : List Nat := toLanes (s.rv h.cl a.toNat) w n
/-- The lanes of operand B, or the broadcast of s[B] (R250). -/
def State.vb (s : State) (h : VHd) (b : BitVec 6) (w n : Nat) : List Nat :=
  if vbcast h then List.replicate n ((s.rs b.toNat).toNat % 2 ^ w) else toLanes (s.rv h.cl b.toNat) w n

/-- A vector result: bits [nb − 1 : 0] of D, the rest as D holds at issue (R250). -/
def State.vresult (s : State) (h : VHd) (lat : Nat) (d : BitVec 6) (nb v : Nat) (flags : Flags := 0) : State :=
  s.result lat (s.vreg h.cl d.toNat) (.bits (mergeLow (s.rv h.cl d.toNat) v nb)) (vflag h.cl) flags

/-- Lane results with their flags. -/
def State.vlanes (s : State) (h : VHd) (lat : Nat) (d : BitVec 6) (w : Nat) (r : List (Nat × Flags)) : State :=
  s.vresult h lat d (w * r.length) (ofLanes w (r.map (·.1))) (r.foldl (fun f x => f ||| x.2) 0)

/-- A mask result: bits [n − 1 : 0] of the mask, the rest unchanged (R259). -/
def State.vmask (s : State) (h : VHd) (lat : Nat) (k : BitVec 3) (r : List Bool) (flags : Flags := 0) : State :=
  s.result lat (.k h.cl k.toNat) (.bits (mergeLow (s.read (.k h.cl k.toNat) 256) (ofLanes 1 (r.map Bool.toNat)) r.length))
    (vflag h.cl) flags

/-- A V slot: its qualifier, room in the undo log for the register it writes, the formats it accepts (R252, R355), then its effect on
format, element width and lane count. -/
def vslot (h : VHd) (s : State) (r : RegId) (ok : Nat → Bool) (f : State → Nat → Nat → Nat → State) : Out :=
  slot h.q s fun s =>
    let c := s.vf h.cl
    if s.undoFull [r] then s.raise 0x0206
    else if ok c then f s c (elemBits c) (vwidth h / elemBits c) else s.raise 0x020C

def fmtAny (_ : Nat) : Bool := true
def fmtArith (c : Nat) : Bool := isFloat c || isInt c
def fmtBits (c : Nat) : Bool := isInt c || c == 14
def fmtEq (c : Nat) : Bool := fmtArith c || c == 14
/-- The formats of the special functions (R111). -/
def fmtSpecial (c : Nat) : Bool := decide (c ≤ 4)

/-- A lane-by-lane operation of two sources. -/
def vbin (h : VHd) (d a b : BitVec 6) (lat : Nat) (s : State) (ok : Nat → Bool) (op : Word → Nat → Nat → Nat → Nat × Flags) : Out :=
  vslot h s (s.vreg h.cl d.toNat) ok fun s c w n => s.vlanes h lat d w (List.zipWith (op s.fmt c) (s.va h a w n) (s.vb h b w n))

/-- A lane-by-lane operation of one source. -/
def vun (h : VHd) (d a : BitVec 6) (lat : Nat) (s : State) (ok : Nat → Bool) (op : Word → Nat → Nat → Nat × Flags) : Out :=
  vslot h s (s.vreg h.cl d.toNat) ok fun s c w n => s.vlanes h lat d w ((s.va h a w n).map (op s.fmt c))

/-- A lane-by-lane operation of two sources and D. -/
def vtri (h : VHd) (d a b : BitVec 6) (lat : Nat) (s : State) (op : Word → Nat → Nat → Nat → Nat → Nat × Flags) : Out :=
  vslot h s (s.vreg h.cl d.toNat) fmtArith fun s c w n =>
    s.vlanes h lat d w (List.zipWith (fun (x : Nat × Nat) z => op s.fmt c x.1 x.2 z)
      (List.zip (s.va h a w n) (s.vb h b w n)) (toLanes (s.rv h.cl d.toNat) w n))

/-- A compare into a mask (R259). -/
def vcmp (h : VHd) (k : BitVec 3) (a b : BitVec 6) (s : State) (ok : Nat → Bool) (rel : Word → Nat → Nat → Nat → Bool × Flags) : Out :=
  vslot h s (.k h.cl k.toNat) ok fun s c w n =>
    let r := List.zipWith (rel s.fmt c) (s.va h a w n) (s.vb h b w n)
    s.vmask h 3 k (r.map (·.1)) (r.foldl (fun f x => f ||| x.2) 0)

/-- The lanes of a reduction with those absent whose mask bit is 0 (R108). -/
def State.maskedLanes (s : State) (h : VHd) (a : BitVec 6) (k : BitVec 3) (w n : Nat) : List (Option Nat) :=
  let m := s.rk h.cl k.toNat
  ((s.va h a w n).zipIdx).map fun x => if m.testBit x.2 then some x.1 else none

end Sys2Proof.Machine
end

