-- ==== Sys2Proof/Machine/Copies.lean ====
section
/-! DEFINITION. What the engines move: the lines of a copy command, the member block of a COLL, and the stores to a core's local memories, which meet
the bytes of running commands (R135, R137, R183, R186, R304 to R306, R375). -/

namespace Sys2Proof.Machine

/-! ### Copy commands (R305, R306) -/

def ctlLen (w : Nat) : Nat := bits w 31 0
def ctlDsp (w : Nat) : Nat := bits w 33 32
def ctlSsp (w : Nat) : Nat := bits w 35 34
def ctlPack (w : Nat) : Bool := bit w 36
def ctlTiles (w : Nat) : Nat := bits w 57 48 + 1

/-- The live tiles of a CPYM with their packed positions (R306). -/
def liveTiles (mask T : Nat) : List (Nat × Nat) :=
  (((List.range T).filter fun t => mask.testBit t).zipIdx).map fun e => (e.1, e.2)

def shapeE (w : Nat) : Nat := 2 ^ bits w 33 32
def shapeC (w : Nat) : Nat := bits w 25 16 + 1
def shapeR (w : Nat) : Nat := bits w 9 0 + 1
/-- The byte ranges of a command: (source, destination, length), for CPY, CPYT and CPYM (R306). -/
def copyMoves (kind : Nat) (ops : List Nat) (mask : Nat) : List (Nat × Nat × Nat) :=
  let o (i : Nat) : Nat := nth 0 ops i
  let w := o 2
  match kind with
  | 0 => [(o 1, o 0, ctlLen w)]
  | 1 =>
    let e := shapeE (o 5)
    (List.range (shapeR (o 5))).flatMap fun r => (List.range (shapeC (o 5))).map fun c =>
      ((o 1 + r * o 4 + c * e) % 2 ^ 64, (o 0 + c * o 3 + r * e) % 2 ^ 64, e)
  | _ => (liveTiles mask (ctlTiles w)).map fun t =>
      ((o 1 + t.1 * o 4) % 2 ^ 64, (o 0 + (if ctlPack w then t.2 else t.1) * o 3) % 2 ^ 64, ctlLen w)

/-- The control word of a command. -/
def Cmd.ctl (k : Cmd) : Nat := nth 0 k.ops (if k.kind = 3 then 3 else 2)
/-- The moves of a command, or of the slot that a CPYC is to fill next: source, destination, length (R306). -/
def Cmd.moves (k : Cmd) (b : CBuf) : List (Nat × Nat × Nat) :=
  if k.kind = 3 then
    if ctlLen k.ctl ≤ k.slots then []
    else (List.range b.ssize).map fun l => ((nth 0 k.ops 0 + k.slots * nth 0 k.ops 1 + l * nth 0 k.ops 2) % 2 ^ 64, b.line b.wp l, 512)
  else (copyMoves k.kind k.ops k.mask.toNat).filter fun m => m.2.2 != 0
/-- Source and destination space of a command: 0 global, 1 scratchpad, 2 accumulator memory (R305). -/
def Cmd.ssp (k : Cmd) : Nat := ctlSsp k.ctl
def Cmd.dsp (k : Cmd) : Nat := if k.kind = 3 then 1 else ctlDsp k.ctl

/-! ### Lines: a command moves one 128-byte line of its destination at a time (R137, R304, R375) -/

/-- The 128-byte line of a space that an address lies in. -/
def lineOf (sp a : Nat) : Nat := (if sp = 0 then a % 2 ^ 56 else a) / 128
/-- A piece among those of its line, in the order of their destinations. -/
def addPiece (x : Nat × Nat × Nat) : List (Nat × Nat × Nat) → List (Nat × Nat × Nat)
  | [] => [x]
  | y :: t => if x.2.1 ≤ y.2.1 then x :: y :: t else y :: addPiece x t
/-- The destination lines of a CPYT, in the order in which its elements come to them. -/
def Cmd.lines (k : Cmd) : List Nat := ((copyMoves 1 k.ops 0).map fun m => lineOf k.dsp m.2.1).eraseDups
/-- The pieces of the line that a command moves next: source, destination, length. A CPYT gathers the elements of one destination line; any other
command moves bytes that follow one another in source and destination. -/
def Cmd.job (k : Cmd) (b : CBuf) : List (Nat × Nat × Nat) :=
  if k.kind = 1 then
    match k.lines[k.pos]? with
    | some L => ((copyMoves 1 k.ops 0).filter fun m => lineOf k.dsp m.2.1 == L).foldr addPiece []
    | none => []
  else match (k.moves b)[k.pos]? with
    | some m =>
      let src := (m.1 + k.off) % 2 ^ 64
      let dst := (m.2.1 + k.off) % 2 ^ 64
      [(src, dst, min (m.2.2 - k.off) (min (128 - src % 128) (128 - dst % 128)))]
    | none => []
/-- The piece that holds byte `n` of a line's data. -/
def pieceAt : Nat → List (Nat × Nat × Nat) → Option (Nat × Nat × Nat)
  | _, [] => none
  | n, x :: t => if n < x.2.2 then some x else pieceAt (n - x.2.2) t
/-- The piece that a command reads next; none once its line is read. -/
def Cmd.nextPiece (k : Cmd) (b : CBuf) : Option (Nat × Nat × Nat) := pieceAt k.buf.length (k.job b)
/-- The command once it has read bytes of its line: 2 when all of them are there. -/
def Cmd.took (k : Cmd) (b : CBuf) (bs : List Byte) : Cmd :=
  let k' : Cmd := { k with buf := k.buf ++ bs }
  { k' with io := if (k'.nextPiece b).isSome then 0 else 2 }
/-- The command after its line is written. -/
def Cmd.advance (k : Cmd) (b : CBuf) : Cmd :=
  let k' : Cmd := { k with io := 0, buf := [], run := 0, bad := false }
  match k.kind, (k.moves b)[k.pos]?, k.job b with
  | 1, _, _ => { k' with pos := k.pos + 1 }
  | _, some m, [x] => if k.off + x.2.2 < m.2.2 then { k' with off := k.off + x.2.2 } else { k' with pos := k.pos + 1, off := 0 }
  | _, _, _ => k'
/-- No line is left of the command, or of the slot that it fills. -/
def Cmd.finished (k : Cmd) (b : CBuf) : Bool := decide ((if k.kind = 1 then k.lines.length else (k.moves b).length) ≤ k.pos)

/-! ### Bytes of a running command (R304) -/

/-- A command has begun to fill the slot that it is at. -/
def Cmd.begun (k : Cmd) : Bool := decide (k.pos ≠ 0) || decide (k.off ≠ 0) || decide (k.io ≠ 0)
/-- The source ranges of a command: space, address, length; of a CPYC, those of `n` slots from one on. -/
def Cmd.sources (k : Cmd) (b : CBuf) (first n : Nat) : List (Nat × Nat × Nat) :=
  if k.kind = 3 then
    (rangeFrom first (min n (ctlLen k.ctl - first))).flatMap fun j => (List.range b.ssize).map fun l =>
      (k.ssp, (nth 0 k.ops 0 + j * nth 0 k.ops 1 + l * nth 0 k.ops 2) % 2 ^ 64, 512)
  else (k.moves b).map fun m => (k.ssp, m.1, m.2.2)
/-- The ranges that a running command reads or writes: for a CPYC those of the slots that it may fill now. -/
def Cmd.areas (k : Cmd) (b : CBuf) : List (Nat × Nat × Nat) :=
  k.sources b k.slots (max 1 b.free.toNat) ++
    (if k.kind = 3 ∧ !k.begun then [] else (k.moves b).map fun m => (k.dsp, m.2.1, m.2.2))
/-- Every source byte of a command. -/
def Cmd.allSources (k : Cmd) (b : CBuf) : List (Nat × Nat × Nat) := k.sources b 0 (if nth 0 k.ops 1 = 0 then 1 else ctlLen k.ctl)
/-- The command has started and is still moving data. -/
def Cmd.running (k : Cmd) : Bool := decide (k.stage = 2) && decide (k.kind ≤ 3)
/-- A byte of a local space as a number above every physical address. -/
def localPlace (sp a : Nat) : Nat := (if sp = 1 then 2 ^ 60 else 2 ^ 61) + a
/-- Ranges hold a byte of a local space. -/
def inLocal (r : List (Nat × Nat × Nat)) (p : Nat) : Bool :=
  r.any fun x => decide (x.1 ≠ 0) && decide (localPlace x.1 x.2.1 ≤ p) && decide (p < localPlace x.1 x.2.1 + x.2.2)

/-- The running commands of a core but for one: context and command. -/
def Core.copying (k : Core) (own : Option (Nat × Nat)) : List (Nat × Cmd) :=
  (List.range 4).flatMap fun c => ((k.ctx c).q.cmds.filter fun x => x.running && decide (own ≠ some (c, x.num))).map fun x => (c, x)
/-- The offsets in a store of `n` bytes from a place that fall on bytes of a running command. -/
def Core.met (k : Core) (e : Nat × Cmd) (p n : Nat) : List Nat :=
  let r := e.2.areas (tget CBuf.reset (k.ctx e.1).regs.cb e.2.cb)
  (List.range n).filter fun i => inLocal r (p + i)
/-- The bytes that a store to a local memory leaves: a byte of a running command is undefined (R304). -/
def State.racedLocal (s : State) (own : Option (Nat × Nat)) (p : Nat) (bs : List Byte) : List Byte :=
  match (s.core.copying own).flatMap fun e => s.core.met e p bs.length with
  | [] => bs
  | l => bs.zipIdx.map fun b => if l.contains b.2 then BitVec.ofNat 8 (s.free (2 ^ 48 + b.2) 8) else b.1
/-- A command of a context of the core in focus changes. -/
def State.modCmdOf (s : State) (c num : Nat) (f : Cmd → Cmd) : State :=
  s.modCtxAt s.focus c fun x => x.onQ fun q => { q with cmds := q.cmds.map fun k => if k.num = num then f k else k }
/-- Running commands note the bytes of theirs that a store meets. -/
def State.noteLocal (s : State) (own : Option (Nat × Nat)) (p n : Nat) : State :=
  (s.core.copying own).foldl (fun s e => s.modCmdOf e.1 e.2.num fun k => { k with dirty := k.dirty ++ (s.core.met e p n).map (p + ·) }) s
/-! ### Words that hold errors (R363, R370, R381) -/

/-- The word stands in bytes of a structure; a check value stands for its whole sector. -/
def WordErr.within (e : WordErr) (st a n : Nat) : Bool :=
  let sz := if e.kind = 2 then 64 else 8
  decide (e.st = st) && decide (0 < n) && decide (a / sz ≤ 8 * e.word / sz) && decide (8 * e.word / sz ≤ (a + n - 1) / sz)
/-- Bytes that are written hold no error any more. -/
def Core.rewritten (k : Core) (st a n : Nat) : Core := { k with errs := k.errs.filter fun e => !e.within st a n }
/-- Scratchpad sectors that a copy engine has written whole with a check value that they do not match (R363). -/
def Core.markSectors (k : Core) (a n : Nat) : Core :=
  { k with errs := ((rangeFrom (a / 64) (n / 64)).filter fun x => decide (a ≤ 64 * x) && decide (64 * x + 64 ≤ a + n)).map (fun x => ⟨2, 8 * x, 2⟩) ++ k.errs }
/-- A machine check is found against a context of the core in focus, with its location (R370). -/
def State.checkFails (s : State) (c code st word : Nat) : State :=
  s.modCtxAt s.focus c fun x => { x with mchk := some (x.mchk.getD (code, st * 2 ^ 56 + word)) }
/-- Bytes of a core SRAM are read for a context: errors that are corrected are counted in CECNT, and one that is not is the machine check 0x0701. A
copy engine or a feed, which passes the data on, checks their sectors as well. -/
def State.readWords (s : State) (c st a n : Nat) (pass : Bool) : State :=
  match s.core.errs.filter fun e => e.within st a n with
  | [] => s
  | met =>
    let s := (s.modCore fun k => { k with errs := k.errs.filter fun e => e.kind != 0 || !e.within st a n }).modDie fun d =>
      { d with regs := { d.regs with cecnt := d.regs.cecnt + (met.filter fun e => e.kind == 0).length } }
    match met.find? fun e => e.kind == 1 || (pass && e.kind == 2) with
    | some e => s.checkFails c 0x0701 st e.word
    | none => s
/-- A beat, a drain or a restore reads the cells: a parity mismatch is the machine check 0x0702 against the array's owner. -/
def State.readCells (s : State) (c : Nat) : State :=
  match s.core.errs.find? fun e => e.st == 10 with
  | some e => s.checkFails c 0x0702 10 e.word
  | none => s

/-- A store to a local memory of the core in focus: 1 scratchpad, 2 accumulator memory; `own` is the command that makes it. -/
def State.localPut (s : State) (own : Option (Nat × Nat)) (sp a : Nat) (bs : List Byte) : State :=
  let b := s.racedLocal own (localPlace sp a) bs
  (s.noteLocal own (localPlace sp a) bs.length).modCore fun k =>
    let k := k.rewritten (sp + 1) a bs.length
    if sp = 1 then { k with spad := Memory.write k.spad a b } else { k with accm := Memory.write k.accm a b }

/-! ### Slot stores (R85, R135, R141, R274) -/

/-- A slot store, performed at once. -/
def State.spadStore (s : State) (a : Nat) (bs : List Byte) : State :=
  (s.localPut none 1 a bs).modCore fun k => { k with recent := (a, bs.length, k.cycle) :: k.recent }
/-- A slot store to accumulator memory, performed at once; the bundle's own reads keep the bytes before it. -/
def State.accStore (s : State) (a : Nat) (bs : List Byte) : State :=
  let old := (rangeFrom a bs.length).map fun x => (x, Memory.get s.core.accm x)
  (s.localPut none 2 a bs).modCore fun k => { k with
    accOld := k.accOld ++ old
    recent := (2 ^ 22 + a, bs.length, k.cycle) :: k.recent }

/-! ### Member blocks (R183, R186) -/

/-- The element bytes of a COLL format. -/
def collSize (fmt : Nat) : Nat := if fmt = 7 then 8 else 4
/-- OP and FMT form a pair of R186. -/
def collPair (op fmt : Nat) : Bool :=
  match op with
  | 0 | 1 | 2 | 3 => [0, 7, 8].contains fmt
  | 4 | 5 => decide (fmt = 14)
  | 6 => [0, 8].contains fmt
  | _ => false
/-- A member block as read: GROUP, SRC, DST, FLAG, FVAL, N, M, IDX, OP, FMT, INST. -/
def collFields (b : List Byte) : List Nat :=
  let f (o n : Nat) : Nat := leNat ((b.drop o).take n)
  [f 0 8, f 8 8, f 16 8, f 24 8, f 32 8, f 40 4, f 44 2, f 46 2, f 48 1, f 49 1, f 50 2]
/-- The checks of R183. -/
def collOk (b : List Byte) : Bool :=
  let f (i : Nat) : Nat := nth 0 (collFields b) i
  collPair (f 8) (f 9) && decide (1 ≤ f 5) && decide (f 5 ≤ 65536) && decide (1 ≤ f 6) && decide (f 6 ≤ 256) && decide (f 7 < f 6) &&
  decide (f 0 % 64 = 0) && decide (leNat (b.drop 52) = 0)
/-- The fields of a block by name. -/
def blkGroup (b : List Nat) : Nat := nth 0 b 0 % 2 ^ 56
def blkSrc (b : List Nat) : Nat := nth 0 b 1 % 2 ^ 56
def blkDst (b : List Nat) : Nat := nth 0 b 2 % 2 ^ 56
def blkFlag (b : List Nat) : Nat := nth 0 b 3
def blkFval (b : List Nat) : Nat := nth 0 b 4
def blkN (b : List Nat) : Nat := nth 0 b 5
def blkM (b : List Nat) : Nat := nth 0 b 6
def blkIdx (b : List Nat) : Nat := nth 0 b 7
def blkOp (b : List Nat) : Nat := nth 0 b 8
def blkFmt (b : List Nat) : Nat := nth 0 b 9
def blkInst (b : List Nat) : Nat := nth 0 b 10
/-- Bytes of a contribution. -/
def blkBytes (b : List Nat) : Nat := blkN b * collSize (blkFmt b)
/-- The values that every member of an instance gives alike (R183). -/
def collAgree (a b : List Nat) : Bool := [0, 5, 6, 8, 9, 10].all fun i => nth 0 a i == nth 0 b i

end Sys2Proof.Machine
end

