-- ==== Sys2Proof/Machine/Sample.lean ====
section
/-! DEFINITION. The S slots: hands, generator registers and sequence operations (R191 to R205, R316 to R325). -/

namespace Sys2Proof.Machine

/-! ### Hands (R191 to R195, R318 to R321) -/

/-- The 64 entries of a hand. -/
def handOf (l : List HEntry) : List HEntry := l ++ List.replicate (64 - l.length) HEntry.reset
/-- Hand `n` of the context. -/
def State.hand (s : State) (n : Nat) : List HEntry := handOf (tget [] s.ctx.regs.hand n)

/-- A key mapped to an unsigned integer (R191): FP32 or INT32. -/
def mapKey (c x : Nat) : Nat :=
  if c = 8 then x ^^^ 2 ^ 31
  else if (toExt 0 false x).isNan then 0
  else if x = 2 ^ 31 then 2 ^ 31
  else if x < 2 ^ 31 then x + 2 ^ 31
  else x ^^^ (2 ^ 32 - 1)

/-- The format is a key format. -/
def keyFmt (c : Nat) : Bool := c == 0 || c == 8

/-- A candidate enters a list in rank order, after what outranks or equals it (R191). -/
def rankInsert (e : HEntry) : List HEntry → List HEntry
  | [] => [e]
  | x :: t =>
    if e.key.toNat < x.key.toNat ∨ (e.key = x.key ∧ x.index.toNat ≤ e.index.toNat) then x :: rankInsert e t else e :: x :: t

/-- The lanes of a 1024-bit register whose mask bit is 1, with their mapped keys. -/
def keyLanes (c v m : Nat) : List (Nat × Nat) :=
  (List.range 32).filterMap fun l => if m.testBit l then some (l, mapKey c (lane v 32 l)) else none

/-- SMERGE's merge (R192). -/
def mergeHand (old : List HEntry) (cand : List HEntry) : List HEntry :=
  handOf ((cand.foldl (fun l e => rankInsert e l) (old.filter (·.valid))).take 64)

/-- HCLR (R318). -/
def execHclr (h : Hd) (hn : BitVec 2) (s : State) : Out :=
  slot h.q s fun s => s.writeNow (.hand hn.toNat) (.hand ((s.hand hn.toNat).map fun e => { e with valid := false }))
/-- SMERGE (R318). -/
def execSmerge (h : Hd) (hn : BitVec 2) (c : BitVec 1) (k : BitVec 3) (a b : BitVec 6) (s : State) : Out :=
  slot h.q s fun s =>
    let cl := c == 1
    let f := s.vf cl
    if s.undoFull [.hand hn.toNat] then s.raise 0x0206
    else if !keyFmt f then s.raise 0x020C
    else
      let base := (s.rs b.toNat).toNat
      let cand := (keyLanes f (s.rv cl a.toNat) (s.rk cl k.toNat)).map fun l =>
        (⟨BitVec.ofNat 32 l.2, BitVec.ofNat 32 (base + l.1), 0, true⟩ : HEntry)
      s.writeNow (.hand hn.toNat) (.hand (mergeHand (s.hand hn.toNat) cand))
/-- A field of an entry as HRD delivers it (R319). -/
def HEntry.field (e : HEntry) (f : Nat) : Nat :=
  match f with
  | 0 => if e.valid then e.key.toNat else 0
  | 1 => if e.valid then e.index.toNat else 2 ^ 32 - 1
  | _ => e.weight.toNat
/-- HRD (R319). -/
def execHrd (h : Hd) (hn : BitVec 2) (c : BitVec 1) (f : BitVec 2) (x : BitVec 1) (d : BitVec 6) (s : State) : Out :=
  slot h.q s fun s =>
    let es := ((s.hand hn.toNat).drop (32 * x.toNat)).take 32
    s.result 6 (s.vreg (c == 1) d.toNat) (.bits (ofLanes 32 (es.map fun e => e.field f.toNat)))
/-- HWR (R318). -/
def execHwr (h : Hd) (hn : BitVec 2) (c x : BitVec 1) (a : BitVec 6) (s : State) : Out :=
  slot h.q s fun s =>
    let v := s.rv (c == 1) a.toNat
    let put (e : HEntry × Nat) : HEntry :=
      if 32 * x.toNat ≤ e.2 ∧ e.2 < 32 * x.toNat + 32 then { e.1 with weight := BitVec.ofNat 32 (lane v 32 (e.2 - 32 * x.toNat)) } else e.1
    s.writeNow (.hand hn.toNat) (.hand ((s.hand hn.toNat).zipIdx.map put))
/-- SSORT (R320). -/
def execSsort (h : Hd) (c : BitVec 1) (k : BitVec 3) (a d : BitVec 6) (s : State) : Out :=
  slot h.q s fun s =>
    let cl := c == 1
    let f := s.vf cl
    if s.undoFull [s.vreg cl d.toNat] then s.raise 0x0206
    else if !keyFmt f then s.raise 0x020C
    else
      let cand := (keyLanes f (s.rv cl a.toNat) (s.rk cl k.toNat)).map fun l =>
        (⟨BitVec.ofNat 32 l.2, BitVec.ofNat 32 l.1, 0, true⟩ : HEntry)
      let r := (cand.foldl (fun l e => rankInsert e l) []).map fun e => e.index.toNat
      s.result 6 (s.vreg cl d.toNat) (.bits (ofLanes 32 (r ++ List.replicate (32 - r.length) (2 ^ 32 - 1))))

/-- Rounding of the sort unit: FP32, to nearest even (R194, R195). -/
def rne32 (x : Ext) : Nat := (roundTo 0 0 false false x).1
/-- A weight as SPICK reads it: +0 if negative, NaN or −0. -/
def pickWeight (w : Nat) : Nat := if (toExt 0 false w).isNan || decide (2 ^ 31 ≤ w) then 0 else w
/-- The running prefix sums. -/
def prefixes : Nat → List Nat → List Nat
  | _, [] => []
  | p, w :: t =>
    let q := rne32 (extSum 0 [toExt 0 false p, toExt 0 false w]).1
    q :: prefixes q t
/-- SPICK's result (R194). -/
def pick (h : List HEntry) (u : Nat) : Word :=
  let v := h.filter (·.valid)
  let ws := v.map fun e => pickWeight e.weight.toNat
  let pre := match ws with | [] => [] | w :: t => w :: prefixes w t
  let total := (pre.getLast?).getD 0
  if total = 0 then BitVec.allOnes 64
  else
    let target := toExt 0 false (rne32 (extMul (toExt 0 false u) (toExt 0 false total)).1)
    let idx (i : Nat) : Word := ((nth HEntry.reset v i).index).setWidth 64
    match (List.range v.length).find? fun i => (extRel .gt (toExt 0 false (nth 0 pre i)) target).1 with
    | some i => idx i
    | none => idx (((List.range v.length).filter fun i => decide (nth 0 ws i ≠ 0)).getLast?.getD 0)
/-- SPICK (R321). -/
def execSpick (h : Hd) (hn : BitVec 2) (a d : BitVec 6) (s : State) : Out :=
  slot h.q s fun s => s.resultS 8 d.toNat (pick (s.hand hn.toNat) ((s.rs a.toNat).toNat % 2 ^ 32))
/-- SACC (R195, R321). -/
def execSacc (h : Hd) (k : BitVec 3) (a : BitVec 6) (s : State) : Out :=
  slot h.q s fun s =>
    let x (i : Nat) : Ext := toExt 0 false ((s.rs (a.toNat + i)).toNat % 2 ^ 32)
    let uq := toExt 0 false (rne32 (extMul (x 0) (x 2)).1)
    s.result 3 (.p k.toNat) (.bits (extRel .lt uq (x 1)).1.toNat)

/-! ### The generator (R196, R197, R322, R323) -/

/-- Generator register `n`. -/
def State.gen (s : State) (n : Nat) : Gen := tget Gen.reset s.ctx.regs.gen n
/-- The key of a slot of the die, if one is loaded (R33, R34). -/
def Die.key (d : Die) (slot : Nat) : Option (BitVec 256) := (d.keys.find? fun e => e.1 == slot).map (·.2)
/-- The lookahead's block for the register as it stands (R197). -/
def Gen.block (g : Gen) : Option (BitVec 128) := (g.look.find? fun b => b.1 == g.slot && b.2.1 == g.ctr).map (·.2.2)
/-- An SRND blocks while its block is missing; an empty slot does not block, it faults (R322). -/
def State.srndBlocks (s : State) (g : BitVec 2) : Bool :=
  (s.die.key (s.gen g.toNat).slot).isSome && (s.gen g.toNat).block.isNone
/-- SRND (R322): the block in an even pair, and the counter advanced; a block held ahead is delivered even from a slot since cleared (R402). -/
def execSrnd (h : Hd) (g : BitVec 2) (d : BitVec 6) (s : State) : Out :=
  slotOr h.q s (fun s => s.srndBlocks g) fun s =>
    let r := s.gen g.toNat
    if s.undoFull [.gen g.toNat, .s d.toNat, .s (d.toNat + 1)] then s.raise 0x0206
    else match r.block with
      | none => if (s.die.key r.slot).isNone then s.raise 0x0605 else s
      | some b =>
        let r' : Gen := ⟨r.ctr + 1, r.slot, r.look.filter fun x => !(x.1 == r.slot && x.2.1 == r.ctr)⟩
        (s.writeNow (.gen g.toNat) (.gen r')).result2 3 (.s d.toNat) (.bits (b.toNat % 2 ^ 64)) (.s (d.toNat + 1)) (.bits (b.toNat / 2 ^ 64))
/-- SRADD (R322). -/
def execSradd (h : Hd) (g : BitVec 2) (a : BitVec 6) (s : State) : Out :=
  slot h.q s fun s =>
    let r := s.gen g.toNat
    let k := BitVec.ofNat 128 ((s.rs a.toNat).toNat + (s.rs (a.toNat + 1)).toNat * 2 ^ 64)
    s.writeNow (.gen g.toNat) (.gen ⟨r.ctr + k, r.slot, []⟩)
/-- The 32-byte record of a generator register (R196). -/
def Gen.record (g : Gen) : List Byte := leBytes 16 g.ctr.toNat ++ leBytes 16 g.slot
/-- SRLD (R323): the record's slot number is checked before watches (R355). -/
def execSrld (h : Hd) (g : BitVec 2) (a : BitVec 6) (s : State) : Out :=
  slot h.q s fun s =>
    let record (ea : Nat) : Nat := leNat (s.spadRead ea 32)
    s.access (localEA (s.rs a.toNat) 0 32 (2 ^ 22)) 32 false [.gen g.toNat]
      (fun s ea => s.writeNow (.gen g.toNat) (.gen ⟨BitVec.ofNat 128 (record ea), record ea / 2 ^ 128, []⟩))
      fun ea => if 15 < record ea / 2 ^ 128 then some 0x020C else none
/-- SRST (R323). -/
def execSrst (h : Hd) (g : BitVec 2) (a : BitVec 6) (s : State) : Out :=
  slot h.q s fun s =>
    s.access (localEA (s.rs a.toNat) 0 32 (2 ^ 22)) 32 true [] fun s ea => s.spadStore ea (s.gen g.toNat).record
/-- x × 2^−24 in FP32, exact (R196). -/
def uniform (x : Nat) : Nat := rne32 (.fin false (x % 2 ^ 24) (-24))
/-- SUNI (R323). -/
def execSuni (h : Hd) (a d : BitVec 6) (s : State) : Out :=
  slot h.q s fun s => s.resultS 1 d.toNat (BitVec.ofNat 64 (uniform (s.rs a.toNat).toNat))

/-! ### Sequence operations (R324): op 0 SQFORK, 1 SQAPP, 2 SQCOMMIT, 3 SQTRUNC, 4 SQCUR, 5 SQFRAME -/

/-- A sequence operation: a checkpoint bundle whose response writes s[D]. -/
def seqOp (h : Hd) (op c n : Nat) (a d : BitVec 6) (s : State) : Out :=
  slotOr h.q s State.ckptFull fun s =>
    let desc := (s.rs a.toNat).toNat % 2 ^ 56
    let x (i : Nat) : Word := if i < n then s.rs (a.toNat + i) else 0
    s.ckptBundle (.seqop op c d.toNat desc (x 1) (x 2)) (if desc % 256 ≠ 0 then some (0x0303, desc) else none)
/-- SQFORK (R324). -/
def execSqfork (h : Hd) (c : BitVec 5) (a d : BitVec 6) (s : State) : Out := seqOp h 0 c.toNat 2 a d s
/-- SQAPP (R324). -/
def execSqapp (h : Hd) (c : BitVec 5) (a d : BitVec 6) (s : State) : Out := seqOp h 1 c.toNat 3 a d s
/-- SQCOMMIT (R324). -/
def execSqcommit (h : Hd) (c : BitVec 5) (a d : BitVec 6) (s : State) : Out := seqOp h 2 c.toNat 3 a d s
/-- SQTRUNC (R324). -/
def execSqtrunc (h : Hd) (a d : BitVec 6) (s : State) : Out := seqOp h 3 0 2 a d s
/-- SQCUR (R324). -/
def execSqcur (h : Hd) (a d : BitVec 6) (s : State) : Out := seqOp h 4 0 2 a d s
/-- SQFRAME (R324). -/
def execSqframe (h : Hd) (a d : BitVec 6) (s : State) : Out := seqOp h 5 0 1 a d s

end Sys2Proof.Machine
end

