-- ==== Sys2Proof/Machine/Sectors.lean ====
section
/-! DEFINITION. The 64-byte sectors of a memory: what a read or a write of them meets, and what it leaves (R149, R363, R380 to R382). -/

namespace Sys2Proof.Machine

/-! ### Sectors (R149, R363, R380, R381) -/

/-- The 64-byte sectors of an access. -/
def sectorsOf (o n : Nat) : List Nat := rangeFrom (o / 64) ((o + n - 1) / 64 + 1 - o / 64)
/-- The access covers a whole sector. -/
def fullSector (o n s : Nat) : Bool := decide (o ≤ 64 * s) && decide (64 * s + 64 ≤ o + n)
/-- The sector was last stored under another ENC than the request's (R149); only HBM is encrypted. -/
def Store.encDiffers (m : Store) (hbm enc : Bool) (s : Nat) : Bool := hbm && (m.plain.contains s == enc)
/-- The sector fails its check under the request's ENC. -/
def Store.fails (m : Store) (hbm enc : Bool) (s : Nat) : Bool := m.bad.contains s || m.encDiffers hbm enc s

/-- The sector is poisoned, or an access to it finds an error that cannot be corrected (R380). -/
def Store.poisoned (m : Store) (s : Nat) : Bool := m.poison.contains s || m.dead.contains s
/-- The sectors of an access that are found uncorrectable are marked poisoned in their metadata (R380). -/
def Store.poisonDead (m : Store) (o n : Nat) : Store :=
  let met := m.dead.filter (sectorsOf o n).contains
  { m with poison := m.poison ++ met.filter fun s => !m.poison.contains s, dead := m.dead.filter fun s => !met.contains s }
/-- The AUX of a read of HBM or second tier. -/
def Store.readAux (m : Store) (hbm enc ichk : Bool) (o n : Nat) : Nat :=
  let l := sectorsOf o n
  if l.any m.poisoned then 5
  else if ichk && l.any (m.fails hbm enc) then 4
  else 0
/-- A byte as its device holds it: undefined once the device has lost it (R382). -/
def Store.byte (m : Store) (a : Nat) : Byte :=
  match m.lost.find? fun r => decide (r.1 ≤ a) && decide (a < r.2.1) with
  | some r => BitVec.ofNat 8 (Config.free r.2.2 (2 ^ 57 + a))
  | none => Memory.get m.mem a
/-- The bytes of a read: undefined where ENC differs (R149). -/
def Store.readBytes (m : Store) (hbm enc : Bool) (draw o n : Nat) : List Byte :=
  (rangeFrom o n).map fun a =>
    if m.encDiffers hbm enc (a / 64) then BitVec.ofNat 8 (Config.free draw (2 ^ 48 + a)) else m.byte a
/-- What is left of a range when bytes from `o` are written. -/
def cutRange (o n : Nat) (r : Nat × Nat × Nat) : List (Nat × Nat × Nat) :=
  [(r.1, min r.2.1 o, r.2.2), (max r.1 (o + n), r.2.1, r.2.2)].filter fun x => decide (x.1 < x.2.1)
/-- A device loses the content of a range (R382). -/
def Store.lose (m : Store) (lo hi draw : Nat) : Store := { m with lost := (lo, hi, draw) :: m.lost.flatMap (cutRange lo (hi - lo)) }
/-- The AUX of a write, or of an atomic when `rmw`. -/
def Store.writeAux (m : Store) (hbm enc rmw : Bool) (o n : Nat) : Nat :=
  let l := (sectorsOf o n).filter fun s => rmw || !fullSector o n s
  if l.any m.poisoned then 5 else if l.any (m.fails hbm enc) then 4 else 0
/-- A write stores its bytes and gives every sector it covers a fresh check value and its own ENC. -/
def Store.put (m : Store) (hbm enc : Bool) (o : Nat) (bs : List Byte) : Store :=
  let l := sectorsOf o bs.length
  let rest := fun (x : List Nat) => x.filter fun s => !l.contains s
  { mem := Memory.write m.mem o bs
    plain := if hbm && !enc then rest m.plain ++ l else rest m.plain
    poison := rest m.poison
    dead := rest m.dead
    soft := rest m.soft
    bad := rest m.bad
    lost := m.lost.flatMap (cutRange o bs.length) }

end Sys2Proof.Machine
end

