-- ==== Sys2Proof/Machine/Global.lean ====
section
/-! DEFINITION. Physical addresses, translation, and requests between agents (R146 to R163, R174 to R182). -/

namespace Sys2Proof.Machine

/-! ### Physical fabric addresses (R150) -/

def paPkg (pa : Nat) : Nat := bits pa 55 52
def paStn (pa : Nat) : Nat := bits pa 51 48
def paOff (pa : Nat) : Nat := pa % 2 ^ 48
def mkPa (p d off : Nat) : Nat := p * 2 ^ 52 + d * 2 ^ 48 + off

/-- The host port that a die's verified deployment record selects: package and bridge die (R17, R27). -/
def Die.hostPort (d : Die) : Option (Nat × Nat) :=
  if d.deploy.isEmpty then none else some (nth 0 d.deploy 2 % 16, 8 + nth 0 d.deploy 3 % 2)
/-- The bridge die whose host port is enabled: its own verified record selects it (R17, R26). -/
def State.hostDie (s : State) : Option (Nat × Nat) :=
  (s.dies.find? fun e => decide (8 ≤ e.1 % 16) && decide (e.2.hostPort = some (e.1 / 16, e.1 % 16))).map fun e => (e.1 / 16, e.1 % 16)

/-- The kind of region that an offset of a station lies in: 0 HBM, 1 second tier, 2 host, 3 device registers (R150). -/
def State.regionKind (s : State) (pa : Nat) : Option Nat :=
  let o := paOff pa
  let d := paStn pa
  if 10 ≤ d then none
  else if 0xFF0000000000 ≤ o ∧ o ≤ 0xFF000000FFFF then some 3
  else if d ≤ 7 then (if o ≤ 0x00FFFFFFFFFF then some 0 else none)
  else if o ≤ 0x0FFFFFFFFFFF then some 1
  else if s.hostDie = some (paPkg pa, d) then
    (if 0x400000000000 ≤ o ∧ o ≤ 0x7FFFFFFFFFFF then some 2
     else if 0xFE0000000000 ≤ o ∧ o ≤ 0xFE0000FFFFFF then some 3 else none)
  else none

/-- HBMTOP's first byte not available (R151). -/
def Die.hbmTop (d : Die) : Nat := d.regs.hbmtop * 2 ^ 16

/-! ### Error log (R362) -/

/-- One entry is written at a die. -/
def State.logError (s : State) (p d code spkg sstn ctx agent w1 w2 w3 : Nat) : State :=
  s.modDieAt p d fun x =>
    let w0 := code + agent * 2 ^ 16 + ctx * 2 ^ 24 + sstn * 2 ^ 32 + spkg * 2 ^ 36
    { x with regs := { x.regs with
        elog := tset x.regs.elog (x.regs.elogcnt % 64) (BitVec.ofNat 64 w0, BitVec.ofNat 64 w1, BitVec.ofNat 64 w2, BitVec.ofNat 64 w3)
        elogcnt := x.regs.elogcnt + 1 } }

/-- The code of an error response's AUX (R361). -/
def auxCode (aux : Nat) : Nat := if 1 ≤ aux ∧ aux ≤ 6 then 0x0300 + aux else 0x0403

/-! ### Routes (R12, R13, R410) -/

/-- The position of a station on its package ring (R12). -/
def ringPos (d : Nat) : Nat := nth 0 [0, 1, 2, 3, 5, 6, 7, 8, 4, 9] d
/-- Hops in the shorter direction of a ring of `n` stations. -/
def ringHops (n a b : Nat) : Nat := min ((a + n - b) % n) ((b + n - a) % n)
/-- The clockwise direction is taken: it has no more hops than the other (R13). -/
def clockwise (n a b : Nat) : Bool := decide ((b + n - a) % n ≤ (a + n - b) % n)
/-- The bridge die through which a slot leaves for another package (R13): the one with the smaller sum of hops to and from it, die 8 if the sums
are equal. A bridge bypassed in either package is none (R410; log entry 57). -/
def State.bridge (s : State) (p d q e : Nat) : Option Nat :=
  let open_ (b : Nat) : Bool := !(s.dieAt p b).bypassed && !(s.dieAt q b).bypassed
  let sum (b : Nat) : Nat := ringHops 10 (ringPos d) (ringPos b) + ringHops 10 (ringPos b) (ringPos e)
  match open_ 8, open_ 9 with
  | true, true => some (if sum 9 < sum 8 then 9 else 8)
  | true, false => some 8
  | false, true => some 9
  | false, false => none
/-- The legs of a slot's route (R13): on a package ring from station to station, or on a rack ring from package to package, each with
whether it runs clockwise. -/
inductive Leg where
  | pkg (p src dst : Nat) (cw : Bool)
  | rack (bridge src dst : Nat) (cw : Bool)
  deriving DecidableEq, Repr
/-- The leg between two stations of a package, none within one station. -/
def pkgLeg (p d e : Nat) : List Leg := if d = e then [] else [.pkg p d e (clockwise 10 (ringPos d) (ringPos e))]
/-- The route of a slot; none to a package out of reach. -/
def State.route (s : State) (p d q e : Nat) : Option (List Leg) :=
  if p = q then some (pkgLeg p d e)
  else (s.bridge p d q e).map fun b => pkgLeg p d b ++ [.rack b p q (clockwise 16 p q)] ++ pkgLeg q b e

/-! ### Homes that are out of reach, forwards, and lines at an engine (R25, R155, R168, R376 to R378, R385, R386) -/

/-- An unreachable destination named by UNRCH (R386). -/
def Die.unreachable (d : Die) (myPkg p stn : Nat) : Bool :=
  d.regs.unrch.getLsbD (16 + p) || (decide (p = myPkg) && d.regs.unrch.getLsbD stn)

/-- The AUX that an access of a unit of a die meets before any home: a station that does not exist (R150), one out of reach (R386), or one that is not
READY, which refuses it eight times (R25, R385). AUX 0x41 and 0x42 stand inside the model for 0x0401 and 0x0402. -/
def State.unitRoute (s : State) (l : Loc) (pa : Nat) : Nat :=
  let d := s.dieAt (paPkg pa) (paStn pa)
  if 10 ≤ paStn pa then 1
  else if (s.dieAt l.pkg l.die).unreachable l.pkg (paPkg pa) (paStn pa) || d.bypassed || (s.route l.pkg l.die (paPkg pa) (paStn pa)).isNone then 0x42
  else if d.boot ≠ .ready ∧ dieKey l.pkg l.die ≠ dieKey (paPkg pa) (paStn pa) then 0x41
  else 0

/-- The record of a page at a die: its words, if it names the page. The table is read with ENC = 1 and ICHK = 1 (R149): a read that
fails gives its AUX. A table in the memory of a lost die gives AUX 0xFF (R410; DESIGN CHOICE, log entry 57). -/
def State.forward (s : State) (pa : Nat) : Except Nat (Option (Nat × Nat)) :=
  let d := s.dieAt (paPkg pa) (paStn pa)
  let size := wbits d.regs.fwdctl 7 0
  if size = 0 then .ok none
  else
    let pn := bits (paOff pa) 47 16
    let at_ := wbits d.regs.fwdctl 55 12 * 2 ^ 12 + 16 * (pn % (64 * size))
    let t := s.dieAt (paPkg at_) (paStn at_)
    let m := t.store
    if t.bypassed then .error 0xFF
    else match m.readAux true true true (paOff at_) 16 with
    | 0 =>
      let w0 := leNat (Memory.read m.mem (paOff at_) 8)
      .ok (if bit w0 0 && decide (bits w0 47 16 = pn) then some (w0, leNat (Memory.read m.mem (paOff at_ + 8) 8)) else none)
    | a => .error a

/-- The forward kind that an access carries to its home: FWD of its leaf entry, and 4 more where a kept forward already serves it (R378). -/
def leafFwd (pte : Nat) : Nat := bits pte 10 9 + (if pte.testBit 64 then 4 else 0)
/-- Where an access by a unit arrives: an address at its home, a held page that it waits for, or nowhere, with its code and the address and AUX of
an error that is logged (R362). -/
inductive Reach where
  | at_ (pa : Nat)
  | wait
  | lost (code : Nat) (err : Option (Nat × Nat))
  deriving DecidableEq, Repr
/-- The home that an address reaches through forward records (R377, R378), `n` of them tried at most: for a unit, whose access is one step. -/
def State.reach (s : State) (l : Loc) (fwd pa : Nat) : Nat → Reach
  | 0 => .lost 0x0307 none
  | n + 1 =>
    match s.unitRoute l pa with
    | 0 => match s.forward pa with
      | .error a => .lost (auxCode a) (some (pa, a))
      | .ok none => if n = 4 ∧ 0 < fwd ∧ fwd < 4 then .lost 0x0301 none else .at_ pa
      | .ok (some (w0, w1)) =>
        if bit w0 1 then .wait
        else if fwd % 4 ≠ 0 ∧ fwd % 4 ≠ bits w1 1 0 then .lost 0x0301 none
        else s.reach l fwd (bits w1 55 16 * 2 ^ 16 + pa % 2 ^ 16) n
    | 1 => .lost 0x0301 (some (pa, 1))
    | a => .lost (if a = 0x41 then 0x0401 else 0x0402) none
/-- An error that an access of a unit met is logged where it was found: at its home, or at the source for a station that does not exist (R150, R362). -/
def State.logReach (s : State) (l : Loc) (c agent : Nat) (e : Option (Nat × Nat)) : State :=
  match e with
  | none => s
  | some (pa, aux) =>
    if 10 ≤ paStn pa then s.logError l.pkg l.die 0x0301 l.pkg l.die c agent pa 0 0
    else s.logError (paPkg pa) (paStn pa) (auxCode aux) l.pkg l.die c agent pa 0 0

/-- The 64-byte line and atomic engine of an address: the engine's package, die and number (R168). -/
def atomicEngine (pa : Nat) : Nat × Nat × Nat :=
  let x := bits (paOff pa) 47 6
  (paPkg pa, if paStn pa ≤ 7 then paStn pa else 0, (bits x 20 0 ^^^ bits x 41 21) % 5)
/-- The bytes of an access below the end of its first 64-byte line. -/
def partCut (pk : Packet) : Nat := 64 - pk.dest % 64
/-- Where a part of an access lies, and its length (R155). -/
def partPlace (pk : Packet) : Nat × Nat :=
  match pk.part with
  | 1 => (pk.dest, partCut pk)
  | 2 => (pk.dest + partCut pk, pk.size - partCut pk)
  | 3 => (pk.faddr, 8)
  | _ => (pk.dest, pk.size)
/-- Requests queued at the engines where a die's lines are applied. -/
def Die.queued (d : Die) : List Packet := d.atomq.flatMap (·.2)
/-- The engine through which an access to a line goes: one that holds the line, or has requests for it that are not yet applied (R156, R168). -/
def State.heldLine (s : State) (pa : Nat) : Option (Nat × Nat × Nat) :=
  let (p, d, e) := atomicEngine pa
  let x := s.dieAt p d
  if (tget [] x.hot e).contains (pa / 64) || (tget [] x.atomq e).any fun q => (partPlace q).1 / 64 == pa / 64 then some (p, d, e) else none
/-- A queued request touches a line of an access. -/
def onLines (pa n : Nat) (q : Packet) : Bool :=
  let x := partPlace q
  paStn x.1 == paStn pa && decide (x.1 / 64 ≤ (pa + n - 1) / 64) && decide (pa / 64 ≤ (x.1 + x.2 - 1) / 64)
/-- A line of an access has requests queued at its engine, which come first (R155, R168). -/
def State.lineQueued (s : State) (pa n : Nat) : Bool :=
  let (p, d, _) := atomicEngine pa
  (s.dieAt p d).queued.any (onLines pa n)

/-! ### Page tables (R147, R148, R372) -/

/-- What a translation gives: an address with its leaf entry, a miss, or the code it fails with. -/
inductive Tr where
  | ok (pa pte : Nat)
  | miss
  | fail (code : Nat)
  deriving DecidableEq, Repr

/-- How a walk fails: its code, 0 where it waits for a held page or for requests that come first, and the address and AUX of a table read that is logged
(R150, R362, R372). -/
abbrev WalkErr := Nat × Option (Nat × Nat)

/-- Eight bytes of a page table at the home that a walker of the die reaches: it lies in HBM below HBMTOP; ENC = 1 and ICHK = 1 (R149, R372). -/
def State.readTable (s : State) (l : Loc) (pa : Nat) : Except WalkErr Nat :=
  match s.reach l 0 pa 5 with
  | .wait => .error (0, none)
  | .lost code e => .error (code, e)
  | .at_ pa =>
    let d := s.dieAt (paPkg pa) (paStn pa)
    let o := paOff pa
    if s.regionKind pa ≠ some 0 ∨ d.hbmTop < o + 8 then .error (0x0301, some (pa, 1))
    else if s.lineQueued pa 8 then .error (0, none)
    else match d.store.readAux true true true o 8 with
      | 0 => .ok (leNat (Memory.read d.store.mem o 8))
      | a => .error (0x0300 + a, some (pa, a))

/-- The walk from level 4 − n + 1 down (R147). -/
def State.walkFrom (s : State) (l : Loc) (va : Nat) : Nat → Nat → Except WalkErr (Nat × Nat)
  | 0, _ => .error (0x0301, none)
  | n + 1, tbl =>
    let lvl := 4 - n
    match s.readTable l (tbl + 8 * bits va (65 - 10 * lvl) (56 - 10 * lvl)) with
    | .error e => .error e
    | .ok pte =>
      let leaf := pte.testBit 4
      if !pte.testBit 0 || (decide (lvl = 1) && leaf) || (decide (lvl = 4) && !leaf) then .error (0x0301, none)
      else if leaf then .ok (56 - 10 * lvl, pte)
      else s.walkFrom l va n (bits pte 55 13 * 2 ^ 13)

/-- The address that a leaf of size 2^sz gives (R147). -/
def leafPa (sz pte va : Nat) : Nat := (bits pte 55 sz) * 2 ^ sz + va % 2 ^ sz

/-- The whole walk, with the KIND check of R148: page size and leaf. -/
def State.walk (s : State) (l : Loc) (root va : Nat) : Except WalkErr (Nat × Nat) :=
  match s.walkFrom l va 4 root with
  | .error e => .error e
  | .ok (sz, pte) =>
    if s.regionKind (leafPa sz pte va) = some (bits pte 6 5) then .ok (sz, pte) else .error (0x0301, none)

/-! ### TLBs (R152) -/

/-- A cached entry serves an access. An entry with leaf 0 is a walk that failed, kept only while its waiters are served. -/
def TlbEnt.hit (e : TlbEnt) (root va : Nat) : Bool := decide (e.root = root) && decide (e.vpn = va / 2 ^ e.sz)

/-- What a cached entry gives; a leaf that a kept forward serves (R378) is marked above its 64 bits. -/
def TlbEnt.give (e : TlbEnt) (va : Nat) : Tr :=
  if e.pte = 0 then .fail ((e.fwd.map (·.1)).getD 0x0301)
  else match e.fwd with
    | some (new, _) => .ok (new * 2 ^ 16 + va % 2 ^ 16) (e.pte + 2 ^ 64)
    | none => .ok (leafPa e.sz e.pte va) e.pte

/-- A place with a core TLB of its own: cores 0 to 19. A unit of a die stands at core 20 and looks its translations up in the die TLB. -/
def hasTlb (l : Loc) : Bool := decide (l.core < 20)
/-- The translation that a core TLB holds. -/
def State.coreHit (s : State) (l : Loc) (root va : Nat) : Option TlbEnt :=
  if hasTlb l then (s.coreAt l).tlb.find? fun e => e.hit root va else none
/-- The translation that the die TLB holds. -/
def State.dieHit (s : State) (l : Loc) (root va : Nat) : Option TlbEnt :=
  (s.dieAt l.pkg l.die).tlb.find? fun e => e.hit root va

/-- A lookup in the core TLB, then the die TLB (R152). -/
def State.lookup (s : State) (l : Loc) (root va : Nat) : Tr :=
  match s.coreHit l root va with
  | some e => e.give va
  | none => match s.dieHit l root va with
    | some e => e.give va
    | none => .miss

/-- A leaf entry's permission: 0 R, 1 W, 2 R and W, 3 X (R146). -/
def permOk (pte need : Nat) : Bool :=
  match need with
  | 0 => pte.testBit 1
  | 1 => pte.testBit 2
  | 2 => pte.testBit 1 && pte.testBit 2
  | _ => pte.testBit 3

/-- Translation with permission. -/
def Tr.need (t : Tr) (n : Nat) : Tr :=
  match t with
  | .ok pa pte => if permOk pte n then .ok pa pte else .fail 0x0302
  | t => t

/-! ### Filling the TLBs (R152) -/

/-- A translation enters a TLB of `n` entries behind those it holds, which go on serving their pages (R152); kept forwards stand first. A
full TLB gives up the plain translation filled longest ago (DESIGN CHOICE, log entry 56). -/
def tlbAdd (n : Nat) (t : List TlbEnt) (e : TlbEnt) : List TlbEnt :=
  let kept := t.filter fun x => x.fwd.isSome
  let plain := (t.filter fun x => x.fwd.isNone && x != e) ++ [e]
  kept ++ plain.drop (kept.length + plain.length - n)
/-- A translation enters a core TLB. -/
def State.fillCore (s : State) (l : Loc) (e : TlbEnt) : State :=
  if hasTlb l then s.modCoreAt l fun k => { k with tlb := tlbAdd 512 k.tlb e } else s
/-- The result of a walk enters both TLBs. -/
def State.fillTlb (s : State) (l : Loc) (root va sz pte : Nat) : State :=
  let e : TlbEnt := ⟨root, va / 2 ^ sz, sz, pte, none⟩
  (s.modDieAt l.pkg l.die fun d => { d with tlb := tlbAdd 16384 d.tlb e }).fillCore l e
/-- A translation that the die TLB alone holds enters the core TLB. -/
def State.useTlb (s : State) (l : Loc) (root va : Nat) : State :=
  match s.coreHit l root va, s.dieHit l root va with
  | none, some e => if e.pte = 0 then s else s.fillCore l e
  | _, _ => s
/-- A walk that failed at a table's home, or on its way there, is logged there with the core or unit that it was for (R150, R174, R362). A walk serves
every context of its core: the entry names context 0 (DESIGN CHOICE, log entry 44). -/
def State.logWalk (s : State) (l : Loc) (e : WalkErr) : State := s.logReach l 0 (if hasTlb l then l.core else 41) e.2

/-- A miss asks the walker: nothing while 64 walks run, and none for a page under walk (R152). -/
def State.walkFree (s : State) (l : Loc) (root va : Nat) : Bool :=
  let d := s.dieAt l.pkg l.die
  !d.walks.contains (root, va / 2 ^ 16) && decide (d.walks.length < 64)

/-- Translation that on a miss walks within the step, if a walker is free and the page is not under walk; else it is to be tried again. -/
def State.translateNow (s : State) (l : Loc) (root va need : Nat) : State × Tr :=
  let va := va % 2 ^ 56
  match s.lookup l root va with
  | .miss =>
    if !s.walkFree l root va then (s, .miss)
    else match s.walk l root va with
    | .error e => if e.1 = 0 then (s, .miss) else (s.logWalk l e, .fail e.1)
    | .ok (sz, pte) => (s.fillTlb l root va sz pte, (Tr.ok (leafPa sz pte va) pte).need need)
  | t => (s.useTlb l root va, t.need need)

/-- Translation that on a miss asks the walker, which runs at most 64 walks; misses of one page share a walk (R152). -/
def State.translateQ (s : State) (l : Loc) (root va need : Nat) : State × Tr :=
  let va := va % 2 ^ 56
  match s.lookup l root va with
  | .miss =>
    if !s.walkFree l root va then (s, .miss)
    else ((s.modDieAt l.pkg l.die fun d => { d with walks := d.walks ++ [(root, va / 2 ^ 16)] }).post ⟨l.pkg, l.die, 0⟩ 0
      (.pageWalkComplete root (va / 2 ^ 16 * 2 ^ 16)), .miss)
  | t => (s.useTlb l root va, t.need need)

/-! ### Requests (R174 to R182) -/

/-- The place of the agent that sent a packet (R174). -/
def packetSource (pk : Packet) : Loc :=
  ⟨pk.spkg, pk.sstn, if pk.agent < 20 then pk.agent else if pk.agent < 40 then pk.agent - 20 else 0⟩
/-- The place whose TLB translates for the agent: a core, or a unit of its die. -/
def agentTlb (pk : Packet) : Loc := if pk.agent < 40 then packetSource pk else ⟨pk.spkg, pk.sstn, 20⟩

/-- The step that a request makes at its destination. -/
def packetArrive (pk : Packet) : Instr :=
  match pk.typ with
  | 1 => .loadreq pk false
  | 3 => .store pk false
  | 4 => .storelast pk false
  | 5 => .atomic pk false
  | 7 => .collPacket pk false
  | _ => .undefinedPacket pk

/-- The key of a source agent's record for a destination station. -/
def srcKey (agent p d : Nat) : Nat := (agent * 16 + p) * 16 + d

/-- What a station sends back to the source of a request: a die that is not READY refuses it but for its management processor (R25). It is lost where no route leads there, or the source's die is bypassed, and the source then ends
under R386 (R13, R410). -/
def State.reply (s : State) (pk : Packet) (i : Instr) : State :=
  let d := s.dieAt pk.spkg pk.sstn
  if d.bypassed || (decide (d.boot ≠ .ready) && !pk.own && pk.agent != 42) then s
  else if decide (paStn pk.dest < 10) && (s.route (paPkg pk.dest) (paStn pk.dest) pk.spkg pk.sstn).isNone then
    s.post ⟨pk.spkg, pk.sstn, 0⟩ 0 (.requestTimeout pk.agent (paPkg pk.dest) (paStn pk.dest))
  else s.post (packetSource pk) pk.sctx i
/-- The answer of a request as it stands, with no way to go. -/
def answerOf (pk : Packet) (aux : Nat) (data : List Byte) : Instr :=
  let r : Packet := { pk with
    aux := aux, data := if aux = 0 then data else [], size := if aux = 0 then pk.size else 0, seq := 0, enc := false, ichk := false, rc := false, part := 0 }
  match pk.typ with | 1 => .loadresp { r with typ := 2 } | 5 => .atomresp { r with typ := 6 } | _ => .ack { r with typ := 10 }
/-- The answer of a request: data, or an error AUX (R176, R361). -/
def State.answer (s : State) (pk : Packet) (aux : Nat) (data : List Byte) : State := s.reply pk (answerOf pk aux data)

/-- What an agent holds for a destination station. -/
def State.source (s : State) (l : Loc) (agent p d : Nat) : Source := tget Source.reset (s.dieAt l.pkg l.die).src (srcKey agent p d)
/-- Requests of an agent that a page's old home has not answered, or redirected ones not yet sent again: what goes to its new place waits for
them (R378). -/
def Source.before (r : Source) (page : Nat) : Bool :=
  (r.redir.any fun e => bits e.2.dest 55 16 == page) ||
  r.moved.any fun m => m.2 == page && r.sent.any fun e => bits e.1.dest 55 16 == m.1
/-- The agent may send one more request to a page: at most 1024 are unanswered at its station (R180), and requests redirected to the page go
first (R378). -/
def State.canSend (s : State) (l : Loc) (agent pa : Nat) : Bool :=
  decide ((s.source l agent (paPkg pa) (paStn pa)).sent.length < 1024) &&
  !((s.dieAt l.pkg l.die).src.any fun r => r.1 / 256 == agent && r.2.before (bits pa 55 16))

/-- A request goes on its way to its station. With no route it is lost, and its source ends under R386. -/
def State.depart (s : State) (pk : Packet) : State :=
  if (s.route pk.spkg pk.sstn (paPkg pk.dest) (paStn pk.dest)).isNone then
    s.post ⟨pk.spkg, pk.sstn, 0⟩ 0 (.requestTimeout pk.agent (paPkg pk.dest) (paStn pk.dest))
  else s.post ⟨paPkg pk.dest, paStn pk.dest, 0⟩ 0 (packetArrive pk)
/-- A request leaves its agent: it takes the next SEQ to its station, is kept until answered, and waits
behind a request that backs off (R181). A station 10 to 15 is answered at
once (R150); an unreachable one fails with 0x0402 (AUX 0x42 inside the model, R386). -/
def State.request (s : State) (l : Loc) (pk : Packet) : State :=
  let p := paPkg pk.dest
  let d := paStn pk.dest
  let pk := { pk with spkg := l.pkg, sstn := l.die, rc := false }
  if 10 ≤ d then
    (s.logError l.pkg l.die 0x0301 l.pkg l.die pk.sctx pk.agent pk.dest 0 0).answer pk 1 []
  else if (s.dieAt l.pkg l.die).unreachable l.pkg p d then s.post (packetSource pk) pk.sctx (answerOf pk 0x42 [])
  else
    let k := srcKey pk.agent p d
    let r := s.source l pk.agent p d
    let pk := { pk with seq := r.seq, own := decide (p = l.pkg) && decide (d = l.die), born := (s.coreAt (packetSource pk)).cycle }
    let s := s.modDieAt l.pkg l.die fun x => { x with src := tset x.src k { r with seq := (r.seq + 1) % 2 ^ 16, sent := r.sent ++ [(pk, 0, 0)] } }
    if r.sent.any fun e => decide (0 < e.2.2) then s else s.depart pk

/-- Two packets are one request. -/
def sameRequest (a b : Packet) : Bool :=
  a.id == b.id && a.sctx == b.sctx && a.tag == b.tag && a.agent == b.agent && a.fval == b.fval && a.dest == b.dest && a.born == b.born
/-- The record of a request is dropped when its answer arrives; whether the request was still kept. -/
def State.answered (s : State) (l : Loc) (pk : Packet) : State × Bool :=
  let k := srcKey pk.agent (paPkg pk.dest) (paStn pk.dest)
  let r := s.source l pk.agent (paPkg pk.dest) (paStn pk.dest)
  match r.sent.find? fun e => sameRequest e.1 pk with
  | none => (s, 10 ≤ paStn pk.dest || pk.aux == 0x42)
  | some e => (s.modDieAt l.pkg l.die fun x => { x with src := tset x.src k { r with sent := r.sent.filter (· != e) } }, true)

/-- A blank packet. -/
def blankPacket : Packet :=
  { typ := 0, size := 0, dest := 0, spkg := 0, sstn := 0, agent := 0, sctx := 0, tag := 0, aux := 0, seq := 0, enc := true, ichk := true
    faddr := 0, fval := 0, rc := false, own := false, fwd := 0, id := 0, part := 0, via := (0, 0, 0), born := 0, data := [] }

/-- ENC and ICHK of a leaf entry (R148, R149). -/
def pteEnc (pte : Nat) : Bool := pte.testBit 7
def pteIchk (pte : Nat) : Bool := pte.testBit 8
/-- The leaf's page is forwarded, and no kept forward gave the address: nothing is mapped at PA itself (R148). -/
def mapsNothing (pte : Nat) : Bool := decide (bits pte 10 9 ≠ 0) && !pte.testBit 64
/-- A request under the leaf entry that translated it (R149). -/
def underLeaf (pk : Packet) (root va pte : Nat) : Packet :=
  { pk with enc := pteEnc pte, ichk := pteIchk pte, via := (root, va % 2 ^ 56 / 2 ^ 16, pte) }

/-! ### What an answer belongs to: the low four bits of a packet's id name the queue, the rest the entry -/

def idLoad (n : Nat) : Nat := 16 * n
def idLane (n lane : Nat) : Nat := 16 * (32 * n + lane) + 1
def idFi (n port : Nat) : Nat := 16 * (2 * n + port) + 2
def idStore (n lane : Nat) : Nat := 16 * (32 * n + lane) + 3
def idWaitf (n : Nat) : Nat := 16 * n + 4
def idFlagw (n : Nat) : Nat := 16 * n + 5
def idCopy (n : Nat) : Nat := 16 * n + 6
def idCollRead (n core : Nat) : Nat := 16 * (32 * n + core) + 7
def idColl (n core : Nat) : Nat := 16 * (32 * n + core) + 8
def idCollOut (n : Nat) : Nat := 16 * n + 9
def idHost (n : Nat) : Nat := 16 * n + 10
def idPacket (n : Nat) : Nat := 16 * n + 13

/-! ### Ordering between the two queues (R159 to R163) -/

/-- A withheld effect that counts as a store, atomic or fabric packet. -/
def Eff.isStore : Eff → Bool
  | .store .. | .scat .. | .atom .. | .packet .. => true
  | _ => false

/-- Every store, atomic and packet with an order number below `ord` is performed at a scope: none still withheld, and each in the
queue sent (ctx, core) or answered (R159). A FLAGW counts from its release. -/
def Ctx.storesDone (c : Ctx) (ord scope : Nat) : Bool :=
  !(c.pipe.held.any fun h => h.eff.isStore && decide (h.ord < ord)) &&
  !(c.q.stq.any fun e => decide (e.id < ord) && !(decide (scope ≤ 1) && e.sent)) &&
  !(c.q.flagws.any fun f => f.released && decide (f.id < ord) && !(decide (scope ≤ 1) && f.sent))

/-- Every load, gather and fabric load request with an order number below `ord` has returned its value. -/
def Queues.loadsDone (q : Queues) (ord : Nat) : Bool :=
  !(q.ldq.any fun e => decide (e.id < ord) && !e.done) && !(q.dropped.any fun e => decide (e.id < ord) && !e.done) &&
  !(q.gdq.any fun e => decide (e.id < ord) && !e.whole) && !(q.gDropped.any fun e => decide (e.id < ord) && !e.whole) &&
  !(q.fiOut.any fun e => decide (e.id < ord))

/-- A mark of the load queue holds nothing back any more (R160, R161). -/
def Ctx.markDone (c : Ctx) (i : LqItem) : Bool :=
  match i.kind with
  | .mark scope fence => c.storesDone i.id scope && (!fence || c.q.loadsDone i.id)
  | _ => false

/-- An LDGA's value has not returned. -/
def Ctx.acqOut (c : Ctx) (i : LqItem) : Bool :=
  match i.kind with
  | .load _ _ true => c.q.ldq.any (fun e => e.id == i.id && !e.done) || c.q.dropped.any (fun e => e.id == i.id && !e.done)
  | _ => false

/-- Whether an ATOMX awaits its response: no later access is sent (R310). -/
def Queues.atomxOut (q : Queues) (ord : Nat) : Bool :=
  q.stq.any fun e => match e.eff with | .atom _ _ _ _ _ _ _ true => decide (e.id < ord) | _ => false

/-- An access is held back by a FENCE with a number below `fence`, by an LDGA with one below `acq`, or by an ATOMX with one below `atomx` (R161,
R162, R310). A store, atomic, packet or FLAGW counts for a FENCE and an ATOMX from its issue and for an LDGA from its release; an engine command for an
ATOMX from its issue and for both others from its release. -/
def Ctx.heldBack (c : Ctx) (fence acq atomx : Nat) : Bool :=
  (c.q.lq.any fun i => match i.kind with
    | .mark _ true => decide (i.id < fence) && !c.markDone i
    | .load _ _ true => decide (i.id < acq) && (!i.sent || c.acqOut i)
    | _ => false) || c.q.atomxOut atomx

/-- A load of a WAITF waits behind the marks of the load queue and behind an ATOMX, and is not ordered against LDG and LDGA (R160, R161, R310, R314). -/
def Ctx.loadHeld (c : Ctx) : Bool :=
  (c.q.lq.any fun i => match i.kind with
    | .mark .. => !c.markDone i
    | _ => false) || c.q.atomxOut c.q.nextId

/-! ### The load queue (R157) -/

/-- A load entry fails (R361, R375): the error is pending until its LPOP, or a TASKEND, reports it (R356, R398). -/
def Queues.failLoad (q : Queues) (id code faddr : Nat) : Queues :=
  let f (e : LdEnt) : LdEnt := if e.id = id then { e with done := true, err := code, faddr := faddr } else e
  let known := (q.ldq ++ q.ldKept.map (·.2)).any fun e => e.id == id
  let q : Queues := { q with ldq := q.ldq.map f, ldKept := q.ldKept.map fun e => (e.1, f e.2), dropped := q.dropped.map f }
  if known || q.dropped.any (fun e => e.id == id) then q.defer ⟨id, 6, 0, code, faddr⟩ else q

/-- Lane `lane` of gather entry `id` returns: its data, or its failure, which once the
entry is whole awaits a bundle that reports it (R299, R356). -/
def Queues.laneBack (q : Queues) (id lane : Nat) (data : List Byte) (code faddr : Nat) : Queues :=
  let f (e : GEnt) : GEnt :=
    if e.id = id then
      { e with
        lanes := if code = 0 then tset e.lanes lane data else e.lanes
        left := e.left - 1
        whole := decide (e.left ≤ 1)
        err := if e.err = 0 then code else e.err
        faddr := if e.err = 0 then faddr else e.faddr }
    else e
  let q : Queues := { q with gdq := q.gdq.map f, gKept := q.gKept.map fun e => (e.1, f e.2), gDropped := q.gDropped.map f }
  match (q.gdq ++ (q.gKept.map fun x => x.2) ++ q.gDropped).find? fun e => e.id == id && e.whole && decide (e.err ≠ 0) with
  | some e => q.defer ⟨e.id, 1, e.num, e.err, e.faddr⟩
  | none => q

/-- Whole gather entries complete their tlg operations; a dropped one then goes (R166, R301). -/
def Queues.gatherWhole (q : Queues) : Queues :=
  let done := (q.gdq ++ q.gDropped).filter (·.whole)
  let q := done.foldl (fun q e => q.complete 1 e.num) q
  { q with gDropped := q.gDropped.filter fun e => !e.whole }

/-- A load request under a leaf entry (R182). -/
def loadPacket (l : Loc) (c root va pa pte n id : Nat) : Packet :=
  underLeaf { blankPacket with typ := 1, size := n, dest := pa, agent := l.core, sctx := c, id := id } root va pte

/-- One load-queue item is sent, fails, or waits: the state, and whether the queue may go on behind it. -/
def State.sendItem (s : State) (i : LqItem) : State × Bool :=
  let l := s.focus
  let c := s.sub
  let root := (s.ctx.bind.map (·.root)).getD 0
  let drop (s : State) : State := s.modQ fun q => { q with lq := q.lq.filter fun x => !(x.id == i.id && x.kind == i.kind) }
  match i.kind with
  | .mark .. => (s, true)
  | .load va n acq =>
    match s.translateQ l root va 0 with
    | (s, .miss) => (s, false)
    | (s, .fail code) => ((drop s).modQ fun q => q.failLoad i.id code va, true)
    | (s, .ok pa pte) =>
      if !s.canSend l l.core pa then (s, false)
      else
        let s := s.request l { loadPacket l c root va pa pte n (idLoad i.id) with faddr := va }
        (if acq then s.modQ fun q => { q with lq := q.lq.map fun x => if x.id = i.id then { x with sent := true } else x } else drop s, !acq)
  | .lane va n lane =>
    match s.translateQ l root va 0 with
    | (s, .miss) => (s, false)
    | (s, .fail code) => ((drop s).modQ fun q => (q.laneBack i.id lane [] code va).gatherWhole, true)
    | (s, .ok pa pte) =>
      if !s.canSend l l.core pa then (s, false) else (drop (s.request l { loadPacket l c root va pa pte n (idLane i.id lane) with faddr := va }), true)
  | .fi port tag n pa pte va =>
    if !s.canSend l l.core pa then (s, false)
    else
      let s := (drop s).modQ fun q => { q with fo := tmod Fo.reset q.fo port fun f => { f with held := f.held - 2 } }
      (s.request l { loadPacket l c root va pa pte n (idFi i.id port) with tag := tag }, true)

/-- The items of the load queue go out in order, behind no mark and no LDGA that still holds (R157, R160 to R162). -/
def State.sendFrom (s : State) : List LqItem → State
  | [] => s
  | i :: t =>
    match i.kind with
    | .mark .. =>
      if s.ctx.markDone i then (s.modQ fun q => { q with lq := q.lq.filter fun x => x.id != i.id }).sendFrom t else s
    | .load _ _ true =>
      if i.sent then
        (if s.ctx.acqOut i then s else (s.modQ fun q => { q with lq := q.lq.filter fun x => x.id != i.id }).sendFrom t)
      else if s.ctx.q.atomxOut i.id then s
      else match s.sendItem i with | (s, true) => s.sendFrom t | (s, false) => s
    | _ =>
      if s.ctx.q.atomxOut i.id then s
      else match s.sendItem i with | (s, true) => s.sendFrom t | (s, false) => s

/-- The load queue of the context in focus sends what it may. -/
def State.sendLoads (s : State) : State := s.sendFrom s.ctx.q.lq

/-- An operation on another core's context, with the focus kept. -/
def State.onCtx (s : State) (l : Loc) (c : Nat) (f : State → State) : State :=
  { f { s with focus := l, sub := c } with focus := s.focus, sub := s.sub }

end Sys2Proof.Machine
end

