-- ==== Sys2Proof/Machine/Queues.lean ====
section
/-! DEFINITION. The X slots: scratchpad, tag table, global loads and stores, gather and scatter, fabric FIFOs (R292 to R303). -/

namespace Sys2Proof.Machine

/-- LDS (R295). -/
def execLds (h : Hd) (n : BitVec 2) (d a f : BitVec 6) (s : State) : Out :=
  slot h.q s fun s =>
    let b := 2 ^ n.toNat
    s.access (localEA (s.rs a.toNat) (f.toNat * b) b (2 ^ 22)) b false [.s d.toNat] fun s ea =>
      s.resultS 6 d.toNat (BitVec.ofNat 64 (leNat (s.spadRead ea b)))
/-- STS (R295): D holds the data. -/
def execSts (h : Hd) (n : BitVec 2) (d a f : BitVec 6) (s : State) : Out :=
  slot h.q s fun s =>
    let b := 2 ^ n.toNat
    s.access (localEA (s.rs a.toNat) (f.toNat * b) b (2 ^ 22)) b true [] fun s ea => s.spadStore ea (leBytes b (s.rs d.toNat).toNat)

/-- The virtual address of a register operand: bits [55:0] (R146). -/
def State.rva (s : State) (a : BitVec 6) : Nat := (s.rs a.toNat).toNat % 2 ^ 56

/-- A global load enters the load data queue and is sent in order (R157, R297). -/
def loadOp (h : Hd) (n : BitVec 3) (a : BitVec 6) (acq : Bool) (s : State) : Out :=
  slot h.q s fun s =>
    let b := 2 ^ n.toNat
    let va := s.rva a
    if 32 ≤ s.ctx.q.ldq.length then s.raise 0x0203
    else if va % b ≠ 0 then s.raise 0x0303 va
    else s.watched false true false va b fun s =>
      let (s, id) := s.takeId
      (s.modQ fun q => { q with
        ldq := q.ldq ++ [⟨id, s.ctx.pipe.ser, b, false, [], 0, 0⟩]
        lq := q.lq ++ [⟨id, s.ctx.pipe.ser, .load va b acq, false⟩] }).sendLoads
/-- LDG (R297). -/
def execLdg (h : Hd) (n : BitVec 3) (a : BitVec 6) (s : State) : Out := loadOp h n a false s
/-- LDGA (R297, R162). -/
def execLdga (h : Hd) (n : BitVec 3) (a : BitVec 6) (s : State) : Out := loadOp h n a true s

/-- An LPOP blocks: its entry's data has not returned (R298). -/
def State.lpopBlocks (s : State) : Bool := match s.ctx.q.ldq with | e :: _ => !e.done | [] => false
/-- LPOP (R298): the popped entry is kept for replay (R83). -/
def execLpop (h : Hd) (f : BitVec 2) (d : BitVec 6) (s : State) : Out :=
  slotOr h.q s State.lpopBlocks fun s =>
    match s.ctx.q.ldq with
    | [] => s.raise 0x0204
    | e :: t =>
      if s.undoFull [if f = 0 then .s d.toNat else s.vreg (f == 2) d.toNat] then s.raise 0x0206
      else if e.err ≠ 0 then s.raise e.err e.faddr none (some e.id)
      else
        let s' := s.modQ fun q => { q with ldq := t, ldKept := q.ldKept ++ [(s.ctx.pipe.ser, e)] }
        if f = 0 then s'.resultS 2 d.toNat (BitVec.ofNat 64 (leNat (e.data.take 8)))
        else
          let cl := f == 2
          s'.result 2 (s.vreg cl d.toNat) (.bits (mergeLow (s.rv cl d.toNat) (leNat e.data) (8 * e.n)))

/-- A store's bytes: an s register up to 8 bytes, a vector register above (R297). -/
def State.storeData (s : State) (n : BitVec 3) (c : BitVec 1) (d : BitVec 6) : List Byte :=
  leBytes (2 ^ n.toNat) (if n.toNat ≤ 3 then (s.rs d.toNat).toNat else s.rv (c == 1) d.toNat)
/-- A global store is withheld with its data, read at issue (R82, R297). -/
def storeOp (h : Hd) (n : BitVec 3) (c : BitVec 1) (p : Option Nat) (a d : BitVec 6) (s : State) : Out :=
  slot h.q s fun s =>
    let b := 2 ^ n.toNat
    let va := s.rva a
    if s.holdFull then s.raise 0x0205
    else if va % b ≠ 0 then s.raise 0x0303 va
    else s.watched false false true va b fun s => s.withhold (.store va (s.storeData n c d) p)
/-- STG (R297). -/
def execStg (h : Hd) (n : BitVec 3) (c : BitVec 1) (a d : BitVec 6) (s : State) : Out := storeOp h n c none a d s
/-- STGR (R297, R163). -/
def execStgr (h : Hd) (n : BitVec 3) (c : BitVec 1) (p : BitVec 3) (a d : BitVec 6) (s : State) : Out :=
  storeOp h n c (some p.toNat) a d s

/-- The element bytes of a gather or scatter, for the widths allowed (R299). -/
def gatherElem (c : Nat) : Option Nat :=
  match elemBits c with | 8 => some 1 | 16 => some 2 | 32 => some 4 | _ => none
/-- The lanes that access memory, with their addresses: every lane but the sentinel (R154, R299). -/
def gatherLanes (base e idx : Nat) : List (Nat × Nat) :=
  (List.range 32).filterMap fun l =>
    let i := lane idx 32 l
    if i = 0xFFFFFFFF then none else some (l, (base + i * e) % 2 ^ 56)
/-- The first lane that a watch matches. -/
def Ctx.watchLanes (c : Ctx) (rd wr : Bool) (e : Nat) (ls : List (Nat × Nat)) : Option (Nat × Nat) :=
  ls.findSome? fun l => c.watchHit false rd wr l.2 e
/-- GPUSH (R299): one gather entry and a tlg number at issue, and its lanes sent in order. -/
def execGpush (h : Hd) (c : BitVec 1) (a x : BitVec 6) (s : State) : Out :=
  slot h.q s fun s =>
    let cl := c == 1
    let va := s.rva a
    if 64 ≤ s.ctx.q.gdq.length then s.raise 0x0203
    else match gatherElem (s.vf cl) with
    | none => s.raise 0x020C
    | some e =>
      let ls := gatherLanes va e (s.rv cl x.toNat)
      if va % e ≠ 0 then s.raise 0x0303 va
      else match s.ctx.watchLanes true false e ls with
      | some (w, b) => s.raise 0x0803 b (some w)
      | none =>
        let (s, num) := s.takeNum 1
        let (s, id) := s.takeId
        let ser := s.ctx.pipe.ser
        (s.modQ fun q => { q with
          gdq := q.gdq ++ [(⟨id, ser, num, e, [], ls.length, ls.isEmpty, 0, 0⟩ : GEnt)]
          lq := q.lq ++ ls.map fun l => (⟨id, ser, .lane l.2 e l.1, false⟩ : LqItem) : Queues }.gatherWhole).sendLoads
/-- A GPOP blocks: the head entry is not whole (R300). -/
def State.gpopBlocks (s : State) : Bool := match s.ctx.q.gdq with | e :: _ => !e.whole | [] => false
/-- GPOP (R300): lanes without an access hold zero. R299's check of VF holds for GPOP too, though the elements popped have the entry's width
(log entry 66). -/
def execGpop (h : Hd) (c : BitVec 1) (d : BitVec 6) (s : State) : Out :=
  slotOr h.q s State.gpopBlocks fun s =>
    let cl := c == 1
    match s.ctx.q.gdq with
    | [] => s.raise 0x0204
    | e :: t =>
      if s.undoFull [s.vreg cl d.toNat] then s.raise 0x0206
      else if gatherElem (s.vf cl) = none then s.raise 0x020C
      else if e.err ≠ 0 then s.raise e.err e.faddr none (some e.id)
      else
        let v := ofLanes (8 * e.e) ((List.range 32).map fun l => leNat (tget [] e.lanes l))
        (s.modQ fun q => { q with gdq := t, gKept := q.gKept ++ [(s.ctx.pipe.ser, e)] }).result 2 (s.vreg cl d.toNat)
          (.bits (mergeLow (s.rv cl d.toNat) v (32 * 8 * e.e)))
/-- SCAT (R299): withheld as one effect with its live lanes. -/
def execScat (h : Hd) (c : BitVec 1) (d a x : BitVec 6) (s : State) : Out :=
  slot h.q s fun s =>
    let cl := c == 1
    let va := s.rva a
    if s.holdFull then s.raise 0x0205
    else match gatherElem (s.vf cl) with
    | none => s.raise 0x020C
    | some e =>
      let ls := gatherLanes va e (s.rv cl x.toNat)
      if va % e ≠ 0 then s.raise 0x0303 va
      else match s.ctx.watchLanes false true e ls with
      | some (w, b) => s.raise 0x0803 b (some w)
      | none =>
        let dat := s.rv cl d.toNat
        let (s, num) := s.takeNum 1
        s.withhold (.scat num (ls.map fun l => (l.2, leBytes e (lane dat (8 * e) l.1))))
/-- QDROP (R301): n = 0 drops every held entry. -/
def execQdrop (h : Hd) (u : BitVec 1) (n : BitVec 7) (s : State) : Out :=
  slot h.q s fun s =>
    let q := s.ctx.q
    let ser := s.ctx.pipe.ser
    let held := if u = 0 then q.ldq.length else q.gdq.length
    let k := if n = 0 then held else n.toNat
    if held < k then s.raise 0x0204
    else if u = 0 then
      s.modQ fun q =>
        let out := q.ldq.take k
        { q with
          ldq := q.ldq.drop k, ldKept := q.ldKept ++ out.map (fun e => (ser, e)), dropped := q.dropped ++ out.filter fun e => !e.done }
    else
      s.modQ fun q =>
        let out := q.gdq.take k
        { q with
          gdq := q.gdq.drop k, gKept := q.gKept ++ out.map (fun e => (ser, e)), gDropped := q.gDropped ++ out.filter fun e => !e.whole }
/-- The leading entries whose data is whole. -/
def leading {α : Type} (t : α → Bool) : List α → Nat
  | x :: l => if t x then leading t l + 1 else 0
  | [] => 0
/-- QCNT (R301). -/
def execQcnt (h : Hd) (u : BitVec 1) (d : BitVec 6) (s : State) : Out :=
  slot h.q s fun s =>
    let q := s.ctx.q
    let held := if u = 0 then q.ldq.length else q.gdq.length
    let ready := if u = 0 then leading (·.done) q.ldq else leading (·.whole) q.gdq
    s.resultS 1 d.toNat (BitVec.ofNat 64 (held + ready * 2 ^ 32))

/-! ### The tag table (R142, R143, R296) -/

/-- The set of a key. -/
def tagSet (k : Nat) : Nat := (List.range 10).foldl (fun x j => x ^^^ (k >>> (7 * j) % 128)) 0
/-- The entry of a set and way. -/
def Core.tag (k : Core) (set way : Nat) : TagEnt := tget ⟨false, 0, 0, 0⟩ k.tags (8 * set + way)
/-- TLOOK (R296): the lowest matching way, or all ones. -/
def execTlook (h : Hd) (d a : BitVec 6) (s : State) : Out :=
  slot h.q s fun s =>
    let k := s.rs a.toNat
    let hit (w : Nat) : Option Word :=
      let t := s.core.tag (tagSet k.toNat) w
      if t.valid && decide (t.ctx = s.sub) && decide (t.key = k) then some (BitVec.ofNat 64 (w * 2 ^ 16 + t.slot.toNat)) else none
    s.resultS 2 d.toNat (((List.range 8).findSome? hit).getD (BitVec.allOnes 64))
/-- TSET (R296). -/
def execTset (h : Hd) (w : BitVec 3) (a b : BitVec 6) (s : State) : Out :=
  slot h.q s fun s =>
    let k := s.rs a.toNat
    let e : TagEnt := ⟨true, s.sub, k, (s.rs b.toNat).setWidth 16⟩
    s.modCore fun c => { c with tags := tset c.tags (8 * tagSet k.toNat + w.toNat) e }
/-- TCLR (R296). -/
def execTclr (h : Hd) (w : BitVec 3) (a : BitVec 6) (s : State) : Out :=
  slot h.q s fun s =>
    let i := 8 * wbits (s.rs a.toNat) 6 0 + w.toNat
    s.modCore fun c => { c with tags := tset c.tags i { c.tag (i / 8) (i % 8) with valid := false } }

/-! ### Fabric FIFOs (R177 to R179, R302, R303) -/

def State.fo (s : State) (p : Nat) : Fo := tget Fo.reset s.ctx.q.fo p
def State.fi (s : State) (p : Nat) : Fi := tget Fi.reset s.ctx.q.fi p
def State.setFo (s : State) (p : Nat) (f : Fo) : State := s.modQ fun q => { q with fo := tset q.fo p f }
def State.setFi (s : State) (p : Nat) (f : Fi) : State := s.modQ fun q => { q with fi := tset q.fi p f }
/-- The fi words that a LOADREQ with this word 0 reserves (R179). -/
def fiWords (w : BitVec 128) : Nat := if bits w.toNat 3 0 = 1 then 2 + (bits w.toNat 15 8 + 15) / 16 else 0
/-- Free words of an fi: words held, kept for replay and reserved take room (R178, R179). -/
def Queues.fiFree (q : Queues) (p : Nat) : Nat :=
  let f := tget Fi.reset q.fi p
  let out := ((q.fiOut.filter fun e => e.port == p).map (·.words)).sum
  let begun := match (tget Fo.reset q.fo p).build with | z :: _ => fiWords z | [] => 0
  64 - (f.words.length + (q.fiKept.filter fun k => k.2.1 == p).length + out + begun)
/-- The words of an FWR: a pair of s registers, or eight of a vector register (R302). -/
def State.fwrWords (s : State) (k : BitVec 1) (r : BitVec 6) (c : BitVec 1) : List (BitVec 128) :=
  if k = 0 then [BitVec.ofNat 128 ((s.rs r.toNat).toNat + (s.rs (r.toNat + 1)).toNat * 2 ^ 64)]
  else (toLanes (s.rv (c == 1) r.toNat) 128 8).map (BitVec.ofNat 128)
/-- Words of a packet by its word 0: headers and payload (R177). -/
def foNeed (w : BitVec 128) : Nat := if bits w.toNat 3 0 = 1 then 2 else 2 + (bits w.toNat 15 8 + 15) / 16
/-- The fi room that the LOADREQs begun by these words reserve (R179). -/
def foReserve : List (BitVec 128) → List (BitVec 128) → Nat
  | _, [] => 0
  | b, w :: t =>
    match b with
    | [] => fiWords w + foReserve [w] t
    | z :: _ => let b := b ++ [w]; foReserve (if b.length = foNeed z then [] else b) t
/-- Where an FWR ends: its state, or the fault that keeps all of it from taking effect; code 0 waits for a walker (R152). -/
abbrev FoRun := Except (Nat × Nat) State
/-- A legal word 0 of a packet (R177). -/
def foLegal (w : BitVec 128) : Bool :=
  let typ := bits w.toNat 3 0
  (typ == 1 || typ == 3 || typ == 4) && decide (bits w.toNat 15 8 ≤ 128)
/-- A packet's word 0 (R177): type and size are checked, DEST is translated, and the packet takes its tlf number. -/
def State.foHead (s : State) (p : Nat) (w : BitVec 128) : FoRun :=
  let typ := bits w.toNat 3 0
  let va := bits w.toNat 71 16
  if !foLegal w then .error (0x0302, va)
  else
    let root := (s.ctx.bind.map (·.root)).getD 0
    match s.translateNow s.focus root va (if typ = 1 then 0 else 1) with
    | (s, .ok pa pte) =>
      let (s, num) := s.takeNum 2
      let f := s.fo p
      .ok (s.setFo p { f with held := f.held + 1, build := [w], num := num, dest := (pa, pte) })
    | (_, .fail c) => .error (c, va)
    | (_, .miss) => .error (0, va)
/-- A packet is whole: a LOADREQ is sent at issue, any other is withheld; its words stay in the fo until then (R177, R179). -/
def State.foDone (s : State) (p : Nat) (ws : List (BitVec 128)) : FoRun :=
  let f := s.fo p
  let z := (nth 0 ws 0).toNat
  let s := s.setFo p { f with build := [] }
  if bits z 3 0 = 1 then
    let (s, id) := s.takeId
    .ok (s.modQ fun q => { q with
      fiOut := q.fiOut ++ [⟨id, s.ctx.pipe.ser, p, fiWords (nth 0 ws 0), f.num, bits z 71 16⟩]
      lq := q.lq ++ [⟨id, s.ctx.pipe.ser, .fi p (bits z 103 88) (bits z 15 8) f.dest.1 f.dest.2 (bits z 71 16), false⟩] })
  else .ok (s.withhold (.packet p f.num ws f.dest f.flag))
/-- The words of an FWR enter the fo one by one (R177). -/
def State.foPush (s : State) (p : Nat) : List (BitVec 128) → FoRun
  | [] => .ok s
  | w :: t =>
    let f := s.fo p
    match f.build with
    | [] => match s.foHead p w with | .ok s => s.foPush p t | .error e => .error e
    | z :: _ =>
      let ws := f.build ++ [w]
      let s := s.setFo p { f with held := f.held + 1, build := ws }
      let flagged : FoRun :=
        if f.build.length = 1 ∧ bits z.toNat 3 0 = 4 then
          let va := bits w.toNat 63 8
          match s.translateNow s.focus ((s.ctx.bind.map (·.root)).getD 0) va 1 with
          | (s, .ok pa pte) => .ok (s.setFo p { s.fo p with flag := (pa, pte) })
          | (_, .fail c) => .error (c, va)
          | (_, .miss) => .error (0, va)
        else .ok s
      match flagged with
      | .error e => .error e
      | .ok s =>
        if ws.length = foNeed z then (match s.foDone p ws with | .ok s => s.foPush p t | .error e => .error e)
        else s.foPush p t
/-- An FWR blocks: no room in the fo, or in the fi for a LOADREQ's answer, or no walker for a translation that it needs. -/
def State.fwrBlocks (s : State) (p k : BitVec 1) (r : BitVec 6) (c : BitVec 1) : Bool :=
  let ws := s.fwrWords k r c
  decide (16 < (s.fo p.toNat).held + ws.length) || decide (s.ctx.q.fiFree p.toNat < foReserve (s.fo p.toNat).build ws) ||
  (match s.foPush p.toNat ws with | .error (0, _) => true | _ => false)
/-- The packets that words complete and that are withheld, up to an illegal header. -/
def foWithheld : List (BitVec 128) → List (BitVec 128) → Nat
  | _, [] => 0
  | b, w :: t =>
    let z := nth w b 0
    let b := b ++ [w]
    if !foLegal z then 0
    else if b.length = foNeed z then (if bits z.toNat 3 0 = 1 then 0 else 1) + foWithheld [] t
    else foWithheld b t
/-- FWR (R302): room in the withhold buffer goes before every other check of its packets (R355). -/
def execFwr (h : Hd) (p k : BitVec 1) (r : BitVec 6) (c : BitVec 1) (s : State) : Out :=
  slotOr h.q s (fun s => s.fwrBlocks p k r c) fun s =>
    let ws := s.fwrWords k r c
    if 256 < s.ctx.pipe.held.length + foWithheld (s.fo p.toNat).build ws then s.raise 0x0205
    else match s.foPush p.toNat ws with
    | .ok s => s.sendLoads
    | .error (code, va) => s.raise code va
/-- An FRD blocks: the fi holds too few words (R303). -/
def State.frdBlocks (s : State) (p k : BitVec 1) : Bool := decide ((s.fi p.toNat).words.length < if k = 0 then 1 else 8)
/-- FRD (R303): popped words are kept for replay; a failed packet's word reports its error (R375). -/
def execFrd (h : Hd) (p k : BitVec 1) (r : BitVec 6) (c : BitVec 1) (s : State) : Out :=
  slotOr h.q s (fun s => s.frdBlocks p k) fun s =>
    let f := s.fi p.toNat
    let n := if k = 0 then 1 else 8
    let out := f.words.take n
    if s.undoFull (if k = 0 then [.s r.toNat, .s (r.toNat + 1)] else [s.vreg (c == 1) r.toNat]) then s.raise 0x0206
    else match out.find? fun w => w.err != 0 with
      | some w => s.raise w.err w.faddr none (some w.ord)
      | none =>
        let s' := (s.setFi p.toNat { f with words := f.words.drop n }).modQ fun q => { q with
          fiKept := q.fiKept ++ out.map fun w => (s.ctx.pipe.ser, p.toNat, w) }
        let v := ofLanes 128 (out.map fun w => w.word.toNat)
        if k = 0 then s'.result2 2 (.s r.toNat) (.bits (v % 2 ^ 64)) (.s (r.toNat + 1)) (.bits (v / 2 ^ 64))
        else s'.result 2 (s.vreg (c == 1) r.toNat) (.bits v)
/-- FCNT (R303). -/
def execFcnt (h : Hd) (p : BitVec 1) (d : BitVec 6) (s : State) : Out :=
  slot h.q s fun s => s.resultS 1 d.toNat (BitVec.ofNat 64 (16 - (s.fo p.toNat).held + (s.fi p.toNat).words.length * 2 ^ 16))

end Sys2Proof.Machine
end

