-- ==== Sys2Proof/Machine/Engines.lean ====
section
/-! DEFINITION. The D slots: copy engine, circular buffers, timeline, marks, atomics, deals, collectives, flags (R304 to R315). -/

namespace Sys2Proof.Machine

/-! ### Copy commands (R304 to R306) -/

/-- The s registers from A on. -/
def State.rsFrom (s : State) (a : BitVec 6) (n : Nat) : List Nat := (List.range n).map fun i => (s.rs (a.toNat + i)).toNat

/-- The control word is legal for a command (R305): kind 0 CPY, 1 CPYT, 2 CPYM, 3 CPYC. -/
def ctlOk (kind w : Nat) : Bool :=
  decide (bits w 63 58 = 0) && decide (bits w 47 37 = 0) && decide (ctlSsp w ≠ 3) && decide (ctlDsp w ≠ 3) &&
  (decide (kind = 2) || (!ctlPack w && decide (bits w 57 48 = 0))) &&
  (decide (kind ≠ 1) || decide (ctlLen w = 0)) && (decide (kind ≠ 3) || decide (ctlDsp w = 1))

/-- A range of a local space stays below its limit; a global one has none (R305). -/
def inSpace (sp a n : Nat) : Bool :=
  match sp with
  | 1 => decide (n = 0) || decide (a + n ≤ 2 ^ 22)
  | 2 => decide (n = 0) || decide (a + n ≤ 2 ^ 20)
  | _ => true

def shapeOk (w : Nat) : Bool := decide (bits w 63 34 = 0) && decide (bits w 31 26 = 0) && decide (bits w 15 10 = 0)

/-- The issue-time fault of a copy command (R305): ranges and control before alignment, in code order. -/
def copyFault (kind : Nat) (ops : List Nat) (mask : Nat) : Option (Nat × Nat) :=
  let o (i : Nat) : Nat := nth 0 ops i
  let w := if kind = 3 then o 3 else o 2
  let al (m : Nat) (l : List Nat) : Option (Nat × Nat) := (l.find? fun x => decide (x % m ≠ 0)).map fun x => (0x0303, x % 2 ^ 56)
  if !ctlOk kind w || (decide (kind = 1) && !shapeOk (o 5)) then some (0x020D, 0)
  else if kind = 3 then al 128 [o 0, o 1, o 2]
  else if (copyMoves kind ops mask).any fun m => !inSpace (ctlSsp w) m.1 m.2.2 || !inSpace (ctlDsp w) m.2.1 m.2.2 then some (0x020D, 0)
  else match kind with
    | 0 => al 128 [o 0, o 1, ctlLen w]
    | 1 => al (shapeE (o 5)) [o 0, o 1, o 3, o 4]
    | _ => al 128 [o 0, o 1, o 3, o 4, ctlLen w]

/-- The copy engine has no room for another command of the context (R304). -/
def State.copyFull (s : State) : Bool := decide (16 ≤ s.ctx.q.cmds.length)

/-- A command takes its tlc number and is withheld (R304). -/
def State.command (s : State) (kind : Nat) (ops : List Nat) (cb : Nat) (mask : Wide) : State :=
  let (s, num) := s.takeNum 0
  let ord := s.ctx.q.nextId
  (s.modQ fun q => { q with cmds := q.cmds ++ [{ Cmd.reset with num := num, root := (s.ctx.bind.map (·.root)).getD 0, ser := ord, kind := kind, ops := ops, cb := cb, mask := mask }] }).withhold (.cmd num)

/-- A copy command of one kind. -/
def copyOp (h : Hd) (kind n : Nat) (a : BitVec 6) (cb : Nat) (mask : State → Wide) (s : State) : Out :=
  slotOr h.q s State.copyFull fun s =>
    let ops := s.rsFrom a n
    if s.holdFull then s.raise 0x0205
    else match copyFault kind ops (mask s).toNat with
      | some (c, va) => s.raise c va
      | none => s.command kind ops cb (mask s)
/-- CPY (R306). -/
def execCpy (h : Hd) (a : BitVec 6) (s : State) : Out := copyOp h 0 3 a 0 (fun _ => 0) s
/-- CPYT (R306). -/
def execCpyt (h : Hd) (a : BitVec 6) (s : State) : Out := copyOp h 1 6 a 0 (fun _ => 0) s
/-- CPYM (R306): the tile mask is read at issue. -/
def execCpym (h : Hd) (m : BitVec 3) (a : BitVec 6) (s : State) : Out :=
  copyOp h 2 5 a 0 (fun s => BitVec.ofNat 1024 (s.rtm m.toNat)) s
/-- CPYC (R306): not held at issue by a CBSET (R138). -/
def execCpyc (h : Hd) (b : BitVec 4) (a : BitVec 6) (s : State) : Out := copyOp h 3 4 a b.toNat (fun _ => 0) s

/-! ### Circular buffers (R138 to R140, R307) -/

/-- CBSET's values are legal (R138). -/
def cbsetOk (base ssize nslot : Nat) : Bool :=
  decide (base % 512 = 0) && decide (1 ≤ ssize) && decide (ssize ≤ 8192) && decide (1 ≤ nslot) && decide (nslot ≤ 256) &&
  decide (base + nslot * ssize * 512 ≤ 2 ^ 22)
/-- CBSET (R307): a tlc operation that takes effect under R138; slots naming the handle wait for it. -/
def execCbset (h : Hd) (b : BitVec 4) (a : BitVec 6) (s : State) : Out :=
  slotOr h.q s State.copyFull fun s =>
    let ops := s.rsFrom a 3
    if s.holdFull then s.raise 0x0205
    else if !cbsetOk (nth 0 ops 0) (nth 0 ops 1) (nth 0 ops 2) then s.raise 0x020D
    else (s.command 4 ops b.toNat 0).modCb b.toNat fun c => { c with pendSet := c.pendSet + 1 }
/-- A slot that names a handle blocks until its CBSET is in effect (R138). -/
def State.cbPending (s : State) (b : BitVec 4) : Bool := decide ((s.cb b.toNat).pendSet ≠ 0)
/-- CBADV.R (R140): RP moves in the issue cycle and is logged. -/
def execCbadvR (h : Hd) (b : BitVec 4) (n : BitVec 9) (s : State) : Out :=
  slotOr h.q s (fun s => s.cbPending b) fun s =>
    let c := s.cb b.toNat
    if s.undoFull [.cbrp b.toNat] then s.raise 0x0206
    else if c.filled < n.toNat then s.raise 0x0209
    else s.writeNow (.cbrp b.toNat) (.bits ((c.rp + n.toNat) % 2 ^ 32))
/-- CBADV.W blocks until its slots are free (R140). -/
def State.cbadvwBlocks (s : State) (b : BitVec 4) (n : BitVec 9) : Bool :=
  let c := s.cb b.toNat
  s.cbPending b || decide (c.free - c.pendW < n.toNat)
/-- CBADV.W (R140): withheld; WP moves at release. -/
def execCbadvW (h : Hd) (b : BitVec 4) (n : BitVec 9) (s : State) : Out :=
  slotOr h.q s (fun s => s.cbadvwBlocks b n) fun s =>
    if s.holdFull then s.raise 0x0205
    else (s.withhold (.cbadv b.toNat n.toNat)).modCb b.toNat fun c => { c with pendW := c.pendW + n.toNat }
/-- CBWAIT blocks until enough slots are filled (R307). -/
def State.cbwaitBlocks (s : State) (b : BitVec 4) (n : BitVec 9) : Bool :=
  let c := s.cb b.toNat
  s.cbPending b || (decide (n.toNat ≤ c.nslot) && decide (c.filled < n.toNat))
/-- CBWAIT (R307). -/
def execCbwait (h : Hd) (b : BitVec 4) (n : BitVec 9) (s : State) : Out :=
  slotOr h.q s (fun s => s.cbwaitBlocks b n) fun s => if (s.cb b.toNat).nslot < n.toNat then s.raise 0x0209 else s

/-! ### Timeline counters (R167, R308) -/

/-- The context whose counter a slot names. -/
def State.tlCtx (s : State) (o : BitVec 1) (x : BitVec 2) : Nat := if o = 1 then s.sub else x.toNat
/-- The counter as it stands before the bundle. -/
def State.tlValue (s : State) (k : BitVec 3) (o : BitVec 1) (x : BitVec 2) : Nat :=
  let t := s.tlCtx o x
  if t = s.sub then tget 0 s.ctx.pipe.tl0 k.toNat else tget 0 (s.core.ctx t).q.tl k.toNat
/-- done(c) of the named counter. -/
def State.tlDone (s : State) (k : BitVec 3) (o : BitVec 1) (x : BitVec 2) : Nat := (s.core.ctx (s.tlCtx o x)).q.doneUpTo k.toNat
/-- TLRD (R308). -/
def execTlrd (h : Hd) (c : BitVec 3) (o : BitVec 1) (x : BitVec 2) (d : BitVec 6) (s : State) : Out :=
  slot h.q s fun s => s.resultS 1 d.toNat (BitVec.ofNat 64 (s.tlValue c o x))
/-- The number a TLWAIT waits for: its own counter's value bounds it (R167, R308). -/
def State.tlwaitN (s : State) (c : BitVec 3) (o : BitVec 1) (x : BitVec 2) (i : BitVec 1) (n : BitVec 6) : Nat :=
  let v := s.tlValue c o x
  let m := if i = 1 then v - n.toNat else (s.rs n.toNat).toNat
  if s.tlCtx o x = s.sub then min m v else m
/-- The number that a TLLAG's bound makes it wait for (R167). -/
def State.tllagN (s : State) (c : BitVec 3) (o : BitVec 1) (x : BitVec 2) (i : BitVec 1) (n : BitVec 6) : Nat :=
  s.tlValue c o x - (if i = 1 then n.toNat else (s.rs n.toNat).toNat)
/-- A wait passes: a failed operation among those waited for reports (R356). -/
def State.tlPass (s : State) (c : BitVec 3) (o : BitVec 1) (x : BitVec 2) (n : Nat) : State :=
  if s.tlCtx o x = s.sub then
    match s.ctx.q.firstDeferred fun d => d.ctr == c.toNat && decide (d.num ≤ n) with
    | some d => s.reportDeferred d
    | none => s
  else s
/-- TLWAIT (R308). -/
def execTlwait (h : Hd) (c : BitVec 3) (o : BitVec 1) (x : BitVec 2) (i : BitVec 1) (n : BitVec 6) (s : State) : Out :=
  slotOr h.q s (fun s => decide (s.tlDone c o x < s.tlwaitN c o x i n)) fun s => s.tlPass c o x (s.tlwaitN c o x i n)
/-- TLLAG (R308). -/
def execTllag (h : Hd) (c : BitVec 3) (o : BitVec 1) (x : BitVec 2) (i : BitVec 1) (n : BitVec 6) (s : State) : Out :=
  slotOr h.q s (fun s => decide (s.tlDone c o x < s.tllagN c o x i n)) fun s => s.tlPass c o x (s.tllagN c o x i n)

/-! ### Marks and fences (R160, R161, R309) -/

/-- A mark enters both queues: what was issued before it has a lower order number. -/
def State.mark (s : State) (scope : Nat) (fence : Bool) : State :=
  let (s, id) := s.takeId
  s.modQ fun q => { q with lq := q.lq ++ [⟨id, s.ctx.pipe.ser, .mark scope fence, false⟩] }
/-- QMARK (R160): later loads wait for earlier stores at core scope. -/
def execQmark (h : Hd) (s : State) : Out := slot h.q s fun s => s.mark 1 false
/-- FENCE (R161): a store known to have failed reports here (R373). -/
def execFence (h : Hd) (p : BitVec 3) (s : State) : Out := slot h.q s fun s => s.orDeferred none fun s => s.mark p.toNat true

/-! ### Atomics (R170, R310) -/

/-- The size of an atomic type (R310). -/
def atomSize (t : BitVec 3) : Nat := match t.toNat with | 0 | 2 | 4 => 4 | _ => 8
/-- The atomic that a slot withholds. -/
def State.atomEff (s : State) (num : Nat) (o t : BitVec 3) (a : BitVec 6) (dst : Option Nat) (x : Bool) : Eff :=
  let m := 2 ^ (8 * atomSize t)
  .atom num o.toNat t.toNat (s.rva a) (BitVec.ofNat 64 ((s.rs (a.toNat + 1)).toNat % m))
    (if o = 7 then BitVec.ofNat 64 ((s.rs (a.toNat + 2)).toNat % m) else 0) dst x
/-- An atomic's own fault: its alignment, then a watch (R355): code, address, watch. -/
def State.atomFault (s : State) (t : BitVec 3) (a : BitVec 6) : Option (Nat × Nat × Option Nat) :=
  let va := s.rva a
  if va % atomSize t ≠ 0 then some (0x0303, va, none)
  else (s.ctx.watchHit false true true va (atomSize t)).map fun w => (0x0803, w.2, some w.1)
/-- ATOM (R310). -/
def execAtom (h : Hd) (o t : BitVec 3) (a : BitVec 6) (s : State) : Out :=
  slot h.q s fun s =>
    if s.holdFull then s.raise 0x0205
    else match s.atomFault t a with
      | some (c, va, w) => s.raise c va w
      | none => let (s, num) := s.takeNum 4; s.withhold (s.atomEff num o t a none false)
/-- An ATOMR or ATOMX: a checkpoint bundle whose response writes s[D] (R84, R310). -/
def atomBundle (h : Hd) (o t : BitVec 3) (a d : BitVec 6) (x : Bool) (s : State) : Out :=
  slotOr h.q s State.ckptFull fun s =>
    if s.holdFull then s.raise 0x0205
    else match s.ctx.q.firstDeferred (fun d => d.ctr == 5), s.atomFault t a with
      | none, none => let (s, num) := s.takeNum 4; s.ckptBundle (s.atomEff num o t a (some d.toNat) x)
      | none, some (c, va, w) => s.raise c va w
      | some e, none => s.reportDeferred e
      | some e, some (c, va, w) => if e.code < c then s.reportDeferred e else s.raise c va w
/-- ATOMR (R310). -/
def execAtomr (h : Hd) (o t : BitVec 3) (a d : BitVec 6) (s : State) : Out := atomBundle h o t a d false s
/-- ATOMX (R310): ordered at sys scope on both sides. -/
def execAtomx (h : Hd) (o t : BitVec 3) (a d : BitVec 6) (s : State) : Out := atomBundle h o t a d true s

/-! ### Deals, barriers, collectives and flags (R311 to R315) -/

/-- DEAL (R311). -/
def execDeal (h : Hd) (d : BitVec 6) (s : State) : Out := slotOr h.q s State.ckptFull fun s => s.ckptBundle (.deal d.toNat)
/-- GBAR (R312). -/
def execGbar (h : Hd) (s : State) : Out := slotOr h.q s State.ckptFull fun s => s.ckptBundle .gbar
/-- COLL (R313): a fifth operation blocks. -/
def execColl (h : Hd) (a : BitVec 6) (s : State) : Out :=
  slotOr h.q s (fun s => decide (4 ≤ s.ctx.q.colls.length)) fun s =>
    let va := s.rva a
    if s.holdFull then s.raise 0x0205
    else if va % 64 ≠ 0 then s.raise 0x0303 va
    else
      let (s, num) := s.takeNum 3
      (s.modQ fun q => { q with colls := q.colls ++ [{ CollOp.reset with num := num, root := (s.ctx.bind.map (·.root)).getD 0, ser := q.nextId, va := va }] }).withhold (.coll num)

/-- CYC has reached a deadline (R205): all ones is never reached. -/
def reached (now deadline : Nat) : Bool := decide (deadline ≠ 2 ^ 64 - 1) && decide (deadline ≤ now % 2 ^ 64)
/-- The flag load that a WAITF is to send goes out, behind the marks before it, or fails its translation (R314, R372). -/
def State.waitfSend (s : State) : State :=
  match s.ctx.pipe.waitf with
  | none => s
  | some w =>
    if !w.due || s.ctx.loadHeld then s
    else
      let l := s.focus
      let root := (s.ctx.bind.map (·.root)).getD 0
      match s.translateNow l root w.va 0 with
      | (t, .ok pa pte) =>
        if !s.canSend l l.core pa then s
        else (t.request l { loadPacket l s.sub root w.va pa pte 8 (idWaitf w.id) with tag := w.final.toNat }).modPipe
          fun p => { p with waitf := some { w with due := false } }
      | (t, .fail c) => t.modPipe fun p => { p with waitf := some { w with due := false, err := c, result := some false } }
      | (_, .miss) => s
/-- A WAITF becomes active: it reads its operands and sends its first load (R314). -/
def State.waitfStart (s : State) (k : BitVec 3) (a : BitVec 6) : State :=
  let va := s.rva a
  if s.undoFull [.p k.toNat] then s.raise 0x0206
  else if va % 8 ≠ 0 then s.raise 0x0303 va
  else
    let dl := (s.rs (a.toNat + 2)).toNat
    (s.modPipe fun p => { p with
      waitf := some ⟨s.draw, va, s.rs (a.toNat + 1), dl, s.cyc, true, reached s.cyc dl, none, 0⟩ }).waitfSend
/-- WAITF (R314): it becomes active, waits, and once R205 has decided writes pD at issue + 1. -/
def execWaitf (h : Hd) (k : BitVec 3) (a : BitVec 6) (s : State) : Out :=
  slot h.q s fun s =>
    match s.ctx.pipe.waitf with
    | none => s.waitfStart k a
    | some w =>
      match w.result with
      | none => s
      | some r =>
        let s' := s.modPipe fun p => { p with waitf := none }
        if s.undoFull [.p k.toNat] then s'.raise 0x0206
        else if w.err ≠ 0 then s'.raise w.err w.va else s'.result 1 (.p k.toNat) (.bits r.toNat)
/-- FLAGW (R315): a ninth not yet applied blocks; it covers the named counters' operations before its bundle. -/
def execFlagw (h : Hd) (m : BitVec 5) (p : BitVec 3) (a : BitVec 6) (s : State) : Out :=
  slotOr h.q s (fun s => decide (8 ≤ s.ctx.q.flagws.length)) fun s =>
    let va := s.rva a
    if s.holdFull then s.raise 0x0205
    else if va % 8 ≠ 0 then s.raise 0x0303 va
    else
      let cover := ((List.range 5).filter fun i => m.toNat.testBit i).map fun i => (i, tget 0 s.ctx.pipe.tl0 i)
      let id := s.ctx.q.nextId
      (s.modQ fun q => { q with
        flagws := q.flagws ++ [⟨id, 0, s.ctx.pipe.ser, va, s.rs (a.toNat + 1), cover, p.toNat, false, false⟩] }).withhold (.flagw id)

end Sys2Proof.Machine
end

