-- ==== Sys2Proof/Machine/Home.lean ====
section
/-! DEFINITION. The home of an address: its checks, reads and writes, memory watches, forwards and device registers (R149, R150, R155, R372 to R384). -/

namespace Sys2Proof.Machine

/-! ### Where an access falls (R150, R151, R187, R413) -/

/-- The own or foreign dump slot of a die holds the offset: 256 MiB each, what its firmware keeps in the own one included (R413). -/
def Die.inDumpSlot (d : Die) (o : Nat) : Bool := decide (d.hbmTop ≤ o) && decide (o < d.hbmTop + 0x20000000)

/-- The AUX that the place of an access gives, for memory: 0 when it exists and may be accessed by this agent (R374, R382, R413). -/
def State.placeAux (s : State) (pk : Packet) (n : Nat) (write : Bool) : Nat :=
  let o := paOff pk.dest
  let p := paPkg pk.dest
  let t := paStn pk.dest
  let d := s.dieAt p t
  match s.regionKind pk.dest with
  | some 0 =>
    if o + n ≤ d.hbmTop then 0
    else if d.inDumpSlot o then (if !write && (pk.agent = 42 || pk.agent = 43) then 0 else 2)
    else 1
  | some 1 =>
    let port := bits o 43 41
    if !(d.regs.portUp.testBit port) then 6 else if Config.cxlCapacity p t port < bits o 40 0 + n then 1 else 0
  | some 2 => 0
  | _ => 1

/-- Memory that the management processor's firmware reaches in its own reserve too (R413): no slot rule. -/
def State.isHbm (s : State) (pa : Nat) : Bool := decide (s.regionKind pa = some 0)

/-- The check value of what is read is checked: for ICHK = 1, and always for what leaves for another package or for the
host (R149, R363). -/
def checkedRead (pk : Packet) : Bool := pk.ichk || decide (pk.spkg ≠ paPkg pk.dest) || decide (pk.agent = 43)
/-- A read of HBM, second tier or host memory at its home. -/
def State.memRead (s : State) (pk : Packet) (n : Nat) : Except Nat (List Byte) :=
  match s.placeAux pk n false with
  | 0 =>
    let o := paOff pk.dest
    if s.regionKind pk.dest = some 2 then .ok (Memory.read s.host.mem (o - 0x400000000000) n)
    else
      let m := (s.dieAt (paPkg pk.dest) (paStn pk.dest)).store
      let hbm := s.isHbm pk.dest
      match m.readAux hbm pk.enc (checkedRead pk) o n with
      | 0 => .ok (m.readBytes hbm pk.enc s.draw o n)
      | a => .error a
  | a => .error a

/-! ### Bytes that another agent writes while an engine reads or writes them (R304, R313) -/

/-- The physical address of a virtual one, by the TLBs or else by the tables; none where nothing is mapped. -/
def State.placeOf (s : State) (l : Loc) (root va : Nat) : Option Nat :=
  match s.lookup l root (va % 2 ^ 56) with
  | .ok pa _ => some pa
  | .fail _ => none
  | .miss => match s.walk l root (va % 2 ^ 56) with
    | .ok (sz, pte) => some (leafPa sz pte (va % 2 ^ 56))
    | .error _ => none
/-- The physical ranges of a virtual one: address and length, page by page. -/
def State.physOf (s : State) (l : Loc) (root a n : Nat) : List (Nat × Nat) :=
  (List.range (n / 65536 + 2)).filterMap fun i =>
    let lo := if i = 0 then a else (a / 65536 + i) * 65536
    let hi := min (a + n) ((a / 65536 + i + 1) * 65536)
    if lo < hi then (s.placeOf l root lo).map fun q => (q, hi - lo) else none
/-- Ranges hold a byte. -/
def inSpots (r : List (Nat × Nat)) (p : Nat) : Bool := r.any fun x => decide (x.1 ≤ p) && decide (p < x.1 + x.2)
/-- Ranges of a command, as places: physical addresses, or places of the local memories. -/
def State.placesOf (s : State) (l : Loc) (k : Cmd) (r : List (Nat × Nat × Nat)) : List (Nat × Nat) :=
  r.flatMap fun x => if x.1 = 0 then s.physOf l k.root x.2.1 x.2.2 else [(localPlace x.1 x.2.1, x.2.2)]
/-- The place of a byte of a command. -/
def State.spotOf (s : State) (l : Loc) (k : Cmd) (sp a : Nat) : Option Nat := if sp = 0 then s.placeOf l k.root a else some (localPlace sp a)

/-- A packet is the one with which a copy command reads or writes its line. -/
def ownLine (l : Loc) (c : Nat) (k : Cmd) (pk : Packet) : Bool :=
  pk.id == idCopy k.num && pk.agent == 20 + l.core && pk.spkg == l.pkg && pk.sstn == l.die && pk.sctx == c
/-- Every copy command of the domain, with its core and context. -/
def State.allCmds (s : State) : List (Loc × Nat × Cmd) :=
  s.cores.flatMap fun e => e.2.ctxs.flatMap fun x => x.2.q.cmds.map fun k => (keyLoc e.1, x.1, k)
/-- The offsets in an access of `n` bytes that meet bytes which a command reads or writes in global memory while it runs. -/
def State.cmdMet (s : State) (l : Loc) (c : Nat) (k : Cmd) (pa n : Nat) : List Nat :=
  if k.running then
    let b := tget CBuf.reset (s.ctxAt l c).regs.cb k.cb
    let r := s.placesOf l k ((k.areas b).filter fun x => x.1 == 0)
    (List.range n).filter fun i => inSpots r (pa + i)
  else []
/-- Bytes of a write that are undefined: those of a running command, and those of a command's own line which another agent has written (R304). -/
def State.racedBytes (s : State) (pk : Packet) (n : Nat) : List Nat :=
  s.allCmds.flatMap fun e =>
    if ownLine e.1 e.2.1 e.2.2 pk then (List.range n).filter fun i => e.2.2.dirty.contains (pk.dest + i)
    else s.cmdMet e.1 e.2.1 e.2.2 pk.dest n
/-- The bytes that a write stores. -/
def State.raced (s : State) (pk : Packet) (bs : List Byte) : List Byte :=
  match s.racedBytes pk bs.length with
  | [] => bs
  | l => bs.zipIdx.map fun b => if l.contains b.2 then BitVec.ofNat 8 (s.free (2 ^ 50 + b.2) 8) else b.1

/-- The member block of a COLL as it stands in memory, until its engine has read it. -/
def State.collBlk (s : State) (l : Loc) (k : CollOp) : List Nat :=
  if k.blk ≠ [] then k.blk
  else match s.placeOf l k.root k.va with
    | none => []
    | some pa => match s.memRead { blankPacket with dest := pa, ichk := false } 64 with
      | .ok b => if collOk b then collFields b else []
      | .error _ => []
/-- The physical ranges of the member block and of the source of a COLL. -/
def State.collSpots (s : State) (l : Loc) (k : CollOp) : List (Nat × Nat) :=
  let b := s.collBlk l k
  s.physOf l k.root k.va 64 ++ (if b.isEmpty then [] else s.physOf l k.root (blkSrc b) (blkBytes b))
/-- A write of `n` bytes meets the block or source of a COLL between its release and its completion (R313). -/
def State.collMet (s : State) (l : Loc) (k : CollOp) (pa n : Nat) : Bool :=
  k.released && (s.collSpots l k).any fun x => decide (x.1 < pa + n) && decide (pa < x.1 + x.2)
/-- An operation whose running results hold a contribution since raced: the results are undefined (R313). -/
def CollInst.spoil (i : CollInst) (draw : Nat) (j : Nat) : CollInst :=
  if j < i.folded then { i with acc := i.acc.zipIdx.map fun x => (Config.free draw (2 ^ 57 + x.2) % 2 ^ 64, x.1.2) } else i
/-- A member's COLL is raced: it notes so, and what was folded of it is undefined. -/
def State.collSpoil (s : State) (l : Loc) (c num : Nat) : State :=
  let s := s.modCtxAt l c fun x => x.onQ fun q => { q with colls := q.colls.map fun k => if k.num = num then { k with raced := true } else k }
  { s with dies := s.dies.map fun d => (d.1, { d.2 with colls := d.2.colls.map fun g => { g with insts := g.insts.map fun i =>
      ((i.members.filter fun m => m.2.1 == locKey l && m.2.2.1 == c && m.2.2.2.1 == num).map (·.1)).foldl (fun i j => i.spoil s.draw j) i } }) }
/-- A write marks the running commands whose bytes it meets, and the collective operations whose block or source it meets (R304, R313). -/
def State.noteRaces (s : State) (pk : Packet) (n : Nat) : State :=
  let cmd (s' : State) (e : Loc × Nat × Cmd) : State :=
    match (if ownLine e.1 e.2.1 e.2.2 pk then [] else s.cmdMet e.1 e.2.1 e.2.2 pk.dest n) with
    | [] => s'
    | m => s'.modCtxAt e.1 e.2.1 fun x => x.onQ fun q => { q with cmds := q.cmds.map fun k =>
        if k.num = e.2.2.num then { k with dirty := k.dirty ++ m.map (pk.dest + ·) } else k }
  let ops : List (Loc × Nat × CollOp) := s.cores.flatMap fun e => e.2.ctxs.flatMap fun x => x.2.q.colls.map fun k => (keyLoc e.1, x.1, k)
  (ops.filter fun e => s.collMet e.1 e.2.2 pk.dest n).foldl (fun s e => s.collSpoil e.1 e.2.1 e.2.2.num) (s.allCmds.foldl cmd s)

/-! ### The bytes that a copy command stores (R304, R306) -/

/-- A line's data in its pieces: source, destination, bytes. -/
def splitLine : List (Nat × Nat × Nat) → List Byte → List (Nat × Nat × List Byte)
  | [], _ => []
  | x :: t, b => (x.1, x.2.1, b.take x.2.2) :: splitLine t (b.drop x.2.2)
/-- Pieces in the order of their destinations as runs of bytes that follow one another: address and bytes. -/
def runsOf : List (Nat × List Byte) → List (Nat × List Byte)
  | [] => []
  | (a, bs) :: t => match runsOf t with
    | [] => [(a, bs)]
    | (b, cs) :: r => if a = b then (b, cs) :: r else if a + bs.length = b then (a, bs ++ cs) :: r else (a, bs) :: (b, cs) :: r
/-- What a command stores of a piece: undefined are bytes that another agent has written while it runs, bytes that are also source bytes of the
command, and bytes that several elements of a CPYT name (R304; log entry 19). -/
def State.pieceBytes (s : State) (k : Cmd) (all : List (Nat × Nat × List Byte)) (x : Nat × Nat × List Byte) : List Byte :=
  let twice := decide (1 < (all.filter fun y => y.2.1 == x.2.1).length)
  if k.dirty.isEmpty && !twice && k.ssp != k.dsp then x.2.2
  else
    let src := s.spotOf s.focus k k.ssp x.1
    let dst := s.spotOf s.focus k k.dsp x.2.1
    let both := if k.ssp = k.dsp then s.placesOf s.focus k (k.allSources (s.cb k.cb)) else []
    let bad (p : Option Nat) (i : Nat) (t : Nat → Bool) : Bool := match p with | some q => t (q + i) | none => false
    x.2.2.zipIdx.map fun e =>
      if twice || bad src e.2 k.dirty.contains || bad dst e.2 k.dirty.contains || bad dst e.2 (inSpots both) then
        BitVec.ofNat 8 (s.free (2 ^ 49 + x.2.1 % 128 + e.2) 8) else e.1
/-- The runs of bytes that a command stores at its line. -/
def State.lineRuns (s : State) (k : Cmd) : List (Nat × List Byte) :=
  let all := splitLine (k.job (s.cb k.cb)) k.buf
  runsOf (all.map fun x => (x.2.1, s.pieceBytes k all x))

/-- A write of HBM, second tier or host memory at its home; `rmw` for an atomic. One of no bytes changes nothing where its place exists (R374). -/
def State.memWrite (s : State) (pk : Packet) (rmw : Bool) (bs : List Byte) : Except Nat State :=
  match s.placeAux pk (max bs.length 1) true with
  | 0 =>
    let o := paOff pk.dest
    if bs.isEmpty then .ok s else
    let bs := s.raced pk bs
    let noted := s.noteRaces pk bs.length
    if s.regionKind pk.dest = some 2 then
      .ok { noted with host := { noted.host with mem := Memory.write noted.host.mem (o - 0x400000000000) bs } }
    else
      let hbm := s.isHbm pk.dest
      match (s.dieAt (paPkg pk.dest) (paStn pk.dest)).store.writeAux hbm pk.enc rmw o bs.length with
      | 0 => .ok (noted.modDieAt (paPkg pk.dest) (paStn pk.dest) fun d => { d with store := d.store.put hbm pk.enc o bs })
      | a => .error a
  | a => .error a

/-! ### Error responses (R361, R362) -/

/-- A failed access is logged at its home; the sectors that it finds uncorrectable are poisoned from then on (R380). -/
def State.logAux (s : State) (pk : Packet) (aux : Nat) : State :=
  let s := if aux = 5 then s.modDieAt (paPkg pk.dest) (paStn pk.dest) fun d => { d with store := d.store.poisonDead (paOff pk.dest) pk.size } else s
  s.logError (paPkg pk.dest) (paStn pk.dest) (auxCode aux) pk.spkg pk.sstn pk.sctx pk.agent pk.dest 0 0

/-! ### Device registers (R4, R29, R42, R151, R188, R362, R376, R380 to R386, R406) -/

/-- BSTAT of a package (R29): the host port and version are those of the record that die 8 has verified, whatever becomes of its boot. -/
def State.bstat (s : State) (p : Nat) : Word :=
  let boot (d : Nat) : Boot := (s.dieAt p d).boot
  let mask (f : Nat → Bool) (sh : Nat) : Nat := ((List.range 10).filter f).foldl (fun x d => x + 2 ^ (sh + d)) 0
  let f := (s.dieAt p 8).deploy
  let own := nth 0 f 2 % 16 * 2 ^ 43 + nth 0 f 3 % 2 * 2 ^ 42 + nth 0 f 4 % 2 ^ 16
  BitVec.ofNat 64 (own + mask (fun d => decide (boot d = .failed)) 32 + mask (fun d => decide (boot d = .ready)) 16)

/-- MBXSTAT (R35). -/
def DevRegs.mbxstat (r : DevRegs) : Word :=
  BitVec.ofNat 64 (r.mbxres * 2 ^ 40 + r.mbxbusy.toNat * 2 ^ 33 + r.mbxdone % 2 ^ 32)
/-- SVCSTAT (R406). -/
def DevRegs.svcstat (r : DevRegs) : Word :=
  BitVec.ofNat 64 (r.svcres * 2 ^ 40 + r.dumped.toNat * 2 ^ 35 + r.drained.toNat * 2 ^ 34 + r.svcbusy.toNat * 2 ^ 33 + r.retired % 2 ^ 20)

/-- A word of an error-log entry. -/
def logWord (e : Word × Word × Word × Word) (n : Nat) : Word :=
  match n with | 0 => e.1 | 1 => e.2.1 | 2 => e.2.2.1 | _ => e.2.2.2
/-- A register of a memory watch. -/
def MWatch.reg (w : MWatch) (n : Nat) : Option Word :=
  match n with | 0 => some w.ctl | 8 => some w.ev | 16 => some w.agt | 24 => some w.adr | 32 => some w.val | _ => none

/-- This die holds the enabled host port. -/
def State.isHostDie (s : State) (p d : Nat) : Bool := decide (s.hostDie = some (p, d))

/-- A listed register of a die reads as this; a write-only register reads as zero (R9). -/
def State.regRead (s : State) (p d o : Nat) : Option Word :=
  let r := (s.dieAt p d).regs
  let n (x : Nat) : Option Word := some (BitVec.ofNat 64 x)
  let wo : Option Word := some 0
  let comp (x : Option Word) : Option Word := if d ≤ 7 then x else none
  if 0x1000 ≤ o ∧ o < 0x1800 then some (logWord (tget (0, 0, 0, 0) r.elog ((o - 0x1000) / 32)) ((o - 0x1000) / 8 % 4))
  else if 0x400 ≤ o ∧ o < 0x500 then (tget MWatch.reset r.mw ((o - 0x400) / 64)).reg ((o - 0x400) % 64)
  else match o with
  | 0x000 => if d = 8 then some (s.bstat p) else none
  | 0x100 => comp wo
  | 0x108 => comp wo
  | 0x110 => comp wo
  | 0x118 => comp (n (if r.tlbq.isEmpty then 0 else 1))
  | 0x120 => comp (n (r.hbmtop % 2 ^ 32 * 2 ^ 16))
  | 0x130 => n r.elogcnt
  | 0x138 => comp (n r.cecnt)
  | 0x140 => some r.fwdctl
  | 0x148 => comp (n r.hbmce)
  | 0x150 => if 8 ≤ d then n (r.portDown % 256 * 256 + r.portUp % 256) else none
  | 0x158 => some r.unrch
  | 0x160 => wo
  | 0x168 => some r.svcstat
  | 0x180 => wo
  | 0x188 => some r.mbxstat
  | 0x200 => if s.isHostDie p d then n r.winbase else none
  | 0x208 => if s.isHostDie p d then n r.bootlen else none
  | _ => none

/-- A listed register is read only. -/
def regRO (o : Nat) : Bool :=
  (decide (0x1000 ≤ o) && decide (o < 0x1800)) || (decide (0x400 ≤ o) && decide (o < 0x500) && decide (16 ≤ o % 64)) ||
  [0x000, 0x118, 0x120, 0x130, 0x138, 0x148, 0x168, 0x188].contains o

/-- The event of a service command word (R406). -/
def serviceEvent (w : Word) : Option Instr :=
  match wbits w 63 60 with
  | 1 => some (.retireCore w)
  | 2 => some (.restoreCore w)
  | 3 => some (.drainDie w)
  | 4 => some (.undrainDie w)
  | 5 => some (.bypassDie w)
  | 6 => some (.updateFirmware w)
  | 7 => some (.dump w)
  | 8 => some (.clearForeignDumpSlot w)
  | _ => none
/-- The event of a mailbox command word (R35). -/
def mailboxEvent (w : Word) : Option Instr :=
  match wbits w 63 60 with
  | 1 => some .quote
  | 2 => some .loadKeySlot
  | 3 => some .clearKeySlot
  | _ => none

/-- A watch register written: HIT is cleared by a 1 (R383). -/
def MWatch.write (w : MWatch) (n : Nat) (v : Word) : MWatch :=
  if n = 0 then
    let hit : Word := if v.getLsbD 60 then 0 else w.ctl &&& (1 <<< 60)
    { w with ctl := (v &&& 0xE0FFFFFFFFFFFFC0) ||| hit }
  else { w with ev := v &&& 0x00FFFFFFFFFFFFF8 }

/-- DEVICE_REGISTER_WRITE: a listed, writable register of a die takes its writable fields (R4); a command register starts its event. -/
def State.regWrite (s : State) (p d o : Nat) (v : Word) : State :=
  let l : Loc := ⟨p, d, 0⟩
  let mod (f : DevRegs → DevRegs) : State := s.modDieAt p d fun x => { x with regs := f x.regs }
  if 0x400 ≤ o ∧ o < 0x500 then
    mod fun r => { r with mw := tmod MWatch.reset r.mw ((o - 0x400) / 64) fun w => w.write ((o - 0x400) % 64) v }
  else match o with
  | 0x100 => s.post l 0 (.launch v)
  | 0x108 => match wbits v 63 60 with | 1 => s.post l 0 (.suspend v) | 2 => s.post l 0 (.resume v) | _ => s
  | 0x110 => (mod fun r => { r with tlbq := r.tlbq ++ [v] }).post l 0 (.tlbinv v)
  | 0x140 => mod fun r => { r with fwdctl := v &&& 0x00FFFFFFFFFFF0FF }
  | 0x150 => mod fun r => { r with portDown := ((List.range 8).filter fun i => r.portDown.testBit i && !v.getLsbD (8 + i)).foldl (fun x i => x + 2 ^ i) 0 }
  | 0x158 => mod fun r => { r with unrch := v &&& 0x00000000FFFF03FF }
  | 0x160 =>
    if (s.dieAt p d).regs.svcbusy then mod fun r => { r with svcres := 1 }
    else match serviceEvent v with
      | some i => (mod fun r => { r with svcbusy := true, svccmd := v }).post l 0 i
      | none => mod fun r => { r with svcres := 2 }
  | 0x180 =>
    if (s.dieAt p d).regs.mbxbusy then mod fun r => { r with mbxres := 1 }
    else match mailboxEvent v with
      | some i => (mod fun r => { r with mbxbusy := true, mbxreq := v }).post l 0 i
      | none => mod fun r => { r with mbxres := 2 }
  | 0x200 => mod fun r => { r with winbase := wbits v 55 36 * 2 ^ 36 }
  | 0x208 => mod fun r => { r with bootlen := wbits v 31 0 }
  | _ => s

/-- The boot window holds an offset. -/
def inBootWindow (o : Nat) : Bool := decide (0xFE0000000000 ≤ o) && decide (o ≤ 0xFE0000FFFFFF)

/-- A read of register space (R150, R374). An access to the boot window is served whatever its alignment (DESIGN CHOICE, log entry 60). -/
def State.devRead (s : State) (pk : Packet) (n : Nat) : Except Nat (List Byte) :=
  let o := paOff pk.dest
  let p := paPkg pk.dest
  let d := paStn pk.dest
  if inBootWindow o then .ok (Memory.read (s.dieAt p d).bootwin (o - 0xFE0000000000) n)
  else
    let r := o - 0xFF0000000000
    if 0x8000 ≤ r ∧ r < 0x8000 + 0x100 * 20 ∧ d ≤ 7 then .error (if r % 32 = 0 then 0xFF else 3)
    else if n ≠ 8 ∨ r % 8 ≠ 0 then .error 3
    else match s.regRead p d r with
      | some v => .ok (leBytes 8 v.toNat)
      | none => .error 1

/-- A write of register space. -/
def State.devWrite (s : State) (pk : Packet) (bs : List Byte) : Except Nat State :=
  let o := paOff pk.dest
  let p := paPkg pk.dest
  let d := paStn pk.dest
  if inBootWindow o then .ok (s.modDieAt p d fun x => { x with bootwin := Memory.write x.bootwin (o - 0xFE0000000000) bs })
  else
    let r := o - 0xFF0000000000
    if 0x8000 ≤ r ∧ r < 0x8000 + 0x100 * 20 ∧ d ≤ 7 then .error 3
    else if bs.length ≠ 8 ∨ r % 8 ≠ 0 then .error 3
    else match s.regRead p d r with
      | none => .error 1
      | some _ => if regRO r then .error 2 else .ok (s.regWrite p d r (BitVec.ofNat 64 (leNat bs)))

/-! ### Memory watches (R383, R384) -/

/-- The first byte of an access in a watched block. -/
def MWatch.hit (w : MWatch) (load : Bool) (pa n : Nat) : Option Nat :=
  let lo := wbits w.ctl 55 6 * 64
  let f := max pa lo
  if w.ctl.getLsbD 63 && (if load then w.ctl.getLsbD 62 else w.ctl.getLsbD 61) && decide (f < pa + n) && decide (f < lo + 64) then some f
  else none

/-- MWAGT of a match. -/
def agentWord (pk : Packet) : Nat := pk.typ + pk.agent * 2 ^ 16 + pk.sctx * 2 ^ 24 + pk.sstn * 2 ^ 32 + pk.spkg * 2 ^ 36

/-- The address names register space. -/
def State.isReg (s : State) (pa : Nat) : Bool := decide (s.regionKind pa = some 3)
/-- The 8 aligned bytes at an address as its home holds them: zero where it has none to give. -/
def State.eightAt (s : State) (pk : Packet) (a : Nat) : List Byte :=
  let q : Packet := { pk with dest := a, ichk := false, spkg := paPkg a, agent := 42 }
  match (if s.isReg a then s.devRead q 8 else s.memRead q 8) with | .ok b => b | .error _ => List.replicate 8 0
/-- VALUE of a match at `f`: the 8 aligned bytes that hold it, as the access returned or left them (R383). -/
def State.watchValue (s : State) (pk : Packet) (load : Bool) (n : Nat) (data : List Byte) (f : Nat) : Nat :=
  let a := f / 8 * 8
  leNat ((s.eightAt pk a).zipIdx.map fun b => if load && decide (pk.dest ≤ a + b.2) && decide (a + b.2 < pk.dest + n) then data.getD (a + b.2 - pk.dest) 0 else b.1)

/-- Watch `n` of the home takes a match: it fills its registers and names its event flag, or counts (R384). -/
def State.watchOne (s : State) (pk : Packet) (load : Bool) (n : Nat) (data : List Byte) (k : Nat) : State × Option Nat :=
  let p := paPkg pk.dest
  let t := paStn pk.dest
  let w := tget MWatch.reset (s.dieAt p t).regs.mw k
  match w.hit load pk.dest n with
  | none => (s, none)
  | some f =>
    let put (w : MWatch) : State := s.modDieAt p t fun d => { d with regs := { d.regs with mw := tset d.regs.mw k w } }
    if w.ctl.getLsbD 60 then
      (put { w with agt := BitVec.ofNat 64 (wbits w.agt 47 0 + min (wbits w.agt 63 48 + 1) 0xFFFF * 2 ^ 48) }, none)
    else
      let ev := wbits w.ev 55 3 * 8
      (put { w with
          ctl := w.ctl ||| (1 <<< 60), agt := BitVec.ofNat 64 (agentWord pk), adr := BitVec.ofNat 64 f
          val := BitVec.ofNat 64 (s.watchValue pk load n data f) }, if ev = 0 then none else some ev)

/-- A write applied to memory or to a register. -/
def State.rawWrite (s : State) (pk : Packet) (rmw : Bool) (bs : List Byte) : Except Nat State :=
  if s.isReg pk.dest then s.devWrite pk bs else s.memWrite pk rmw bs
/-- The watches of the home see an applied access (R384): each new match stores to its event flag after it, which the watches there see in turn. A
flag's own match sets HIT, so that five rounds are enough. An event store that fails is logged. -/
def State.watchFrom : Nat → State → Packet → Bool → Nat → List Byte → State
  | 0, s, _, _, _, _ => s
  | m + 1, s, pk, load, n, data =>
    let home : Loc := ⟨paPkg pk.dest, paStn pk.dest, 20⟩
    (List.range 4).foldl (fun s k =>
      match s.watchOne pk load n data k with
      | (s, none) => s
      | (s, some ev) =>
        let store (pa : Nat) : State :=
          let q : Packet := { pk with typ := 3, size := 8, dest := pa, enc := true }
          match s.rawWrite q false (leBytes 8 (k + 1)) with
          | .ok s => s.watchFrom m q false 8 (leBytes 8 (k + 1))
          | .error a => s.logAux q a
        match s.reach home 0 ev 5 with
        | .at_ pa => store pa
        | .wait => store ev
        | .lost _ e => s.logReach home pk.sctx pk.agent e) s
/-- All watches of a home, once an access is applied. -/
def State.watchAll (s : State) (pk : Packet) (load : Bool) (n : Nat) (data : List Byte) : State := s.watchFrom 5 pk load n data

/-! ### An access applied at its home (R155) -/

/-- The HBM controller corrects the errors that an access finds, and counts them (R380). -/
def State.countSoft (s : State) (pk : Packet) (n : Nat) : State :=
  let d := s.dieAt (paPkg pk.dest) (paStn pk.dest)
  if d.store.soft.isEmpty || !s.isHbm pk.dest then s
  else s.modDieAt (paPkg pk.dest) (paStn pk.dest) fun d =>
    let met := d.store.soft.filter (sectorsOf (paOff pk.dest) n).contains
    { d with
      store := { d.store with soft := d.store.soft.filter fun x => !met.contains x }
      regs := { d.regs with hbmce := d.regs.hbmce + met.length } }
/-- A read applied at its home, seen by the home's watches. -/
def State.homeRead (s : State) (pk : Packet) (n : Nat) : Except Nat (State × List Byte) :=
  match (if s.isReg pk.dest then s.devRead pk n else s.memRead pk n) with
  | .ok b => .ok ((s.countSoft pk n).watchAll pk true n b, b)
  | .error a => .error a

/-- A write applied at its home, seen by the home's watches. -/
def State.homeWrite (s : State) (pk : Packet) (rmw : Bool) (bs : List Byte) : Except Nat State :=
  match (s.countSoft pk bs.length).rawWrite pk rmw bs with
  | .ok s => .ok (s.watchAll pk false bs.length bs)
  | .error a => .error a

/-- The die takes a write of its register from an agent outside it: it is READY and not bypassed; before that, the enabled host-port bridge that
awaits its image takes WINBASE and BOOTLEN alone (R25, R27, R30, R410). -/
def State.takesReg (s : State) (p d off : Nat) : Bool :=
  let x := s.dieAt p d
  !x.bypassed && (decide (x.boot = .ready) || (decide (x.boot = .awaitImage) && s.isHostDie p d && (off == 0x200 || off == 0x208)))
/-- DEVICE_REGISTER_WRITE (R4): a listed register of the die is written; one unlisted or read only is not, and is logged (R374). A die that does
not take the write refuses it, and nothing changes (R25, R30). -/
def execDeviceRegisterWrite (off : Nat) (w : Word) (s : State) : Out :=
  .next (
    if !s.takesReg s.focus.pkg s.focus.die off then s
    else
    let pk : Packet := { blankPacket with
      typ := 3, size := 8, dest := mkPa s.focus.pkg s.focus.die (0xFF0000000000 + off), agent := 42, spkg := s.focus.pkg, sstn := s.focus.die }
    match s.devWrite pk (leBytes 8 w.toNat) with
    | .ok s => s
    | .error a => s.logAux pk a)

end Sys2Proof.Machine
end

