-- ==== Sys2Proof/Machine/Station.lean ====
section
/-! DEFINITION. A destination station: acceptance in SEQ order, refusal, and requests applied at their home (R155, R168 to R181, R372 to R388). -/

namespace Sys2Proof.Machine

/-! ### Acceptance and refusal (R25, R178, R180) -/

/-- The next SEQ expected of the agent that sent a request. -/
def Die.expected (d : Die) (pk : Packet) : Nat := tget 0 d.expect (srcKey pk.agent pk.spkg pk.sstn)
/-- A request is accepted: the next SEQ of its source is expected. -/
def State.accept (s : State) (pk : Packet) : State :=
  s.modDieAt (paPkg pk.dest) (paStn pk.dest) fun d =>
    { d with expect := tset d.expect (srcKey pk.agent pk.spkg pk.sstn) ((pk.seq + 1) % 2 ^ 16) }

/-- The step that a request makes at its station. -/
def State.rearrive (s : State) (pk : Packet) : State := s.post ⟨paPkg pk.dest, paStn pk.dest, 0⟩ 0 (packetArrive pk)

/-- A request is refused: it recirculates once, and then a NACK goes to its source (R180, R181). An access of the same die, which
is on no ring, waits. -/
def State.refuse (s : State) (pk : Packet) (reason : Nat) : State :=
  if pk.own then s.rearrive pk
  else if !pk.rc then s.rearrive { pk with rc := true }
  else s.reply pk (.nack { pk with typ := 9, aux := reason, seq := 0, enc := false, ichk := false, rc := false, data := [] })

/-- The fabric port that an address names: core, context and port pair (R178). -/
def State.portOf (s : State) (pa : Nat) : Option (Loc × Nat × Nat) :=
  let r := paOff pa - 0xFF0000000000
  if s.isReg pa && !inBootWindow (paOff pa) && decide (paStn pa ≤ 7) && decide (0x8000 ≤ r) && decide (r < 0x8000 + 0x1400) && decide (r % 32 = 0) then
    let x := r - 0x8000
    some (⟨paPkg pa, paStn pa, x / 0x100⟩, x / 0x40 % 4, x / 0x20 % 2)
  else none

/-- A request of image delivery, which the enabled host-port bridge accepts while it awaits its image: a LOADREQ of a management processor to
the boot window or BOOTLEN (R25), or a host access to those or to WINBASE (R27). -/
def State.imageRequest (s : State) (pk : Packet) : Bool :=
  let p := paPkg pk.dest
  let d := paStn pk.dest
  let o := paOff pk.dest
  s.isHostDie p d && decide ((s.dieAt p d).boot = .awaitImage) &&
  ((decide (pk.typ = 1) && decide (pk.agent = 42) && (inBootWindow o || decide (o = 0xFF0000000208))) ||
   (decide (pk.agent = 43) && (inBootWindow o || decide (o = 0xFF0000000208) || decide (o = 0xFF0000000200))))

/-- An address within the window of a port pair (R178). -/
def State.portWindow (s : State) (pa : Nat) : Bool :=
  let r := paOff pa - 0xFF0000000000
  s.isReg pa && !inBootWindow (paOff pa) && decide (paStn pa ≤ 7) && decide (0x8000 ≤ r) && decide (r < 0x8000 + 0x1400)

/-- Words of a packet in an fi: its headers and its payload. -/
def fiNeed (pk : Packet) : Nat := 2 + (pk.size + 15) / 16

/-- The inbound buffer of a station is full: 256 requests that came over the rings are taken and not yet applied (R180). -/
def State.inboundFull (s : State) (p d : Nat) : Bool :=
  decide (256 ≤ ((s.dieAt p (if d ≤ 7 then d else 0)).atomq.map fun e =>
    (e.2.filter fun q => !q.own && paStn q.dest == d && decide (q.part ≤ 1)).length).sum)

/-- The reason for which the station refuses a request, in the order of its codes; 0 when it takes it (R180). -/
def State.refusal (s : State) (pk : Packet) (full : Bool) : Nat :=
  let d := s.dieAt (paPkg pk.dest) (paStn pk.dest)
  if d.boot ≠ .ready && !s.imageRequest pk then 5
  else if pk.seq ≠ d.expected pk then 2
  else if (full || s.inboundFull (paPkg pk.dest) (paStn pk.dest)) && !pk.own then 1
  else match (if pk.typ = 3 ∨ pk.typ = 4 then s.portOf pk.dest else none) with
    | some (l, c, p) =>
      let x := s.ctxAt l c
      if x.bind.isNone then 3
      else if x.q.fiFree p < fiNeed pk then 4
      else 0
    | none =>
      match s.forward pk.dest with
      | .ok (some (w0, _)) => if bit w0 1 then 1 else 0
      | _ => 0

/-- The station takes a request, refuses it, or, bypassed, takes nothing: the source then ends under R386. -/
def State.arrive (s : State) (pk : Packet) (full : Bool) (f : State → State) : State :=
  if (s.dieAt (paPkg pk.dest) (paStn pk.dest)).bypassed then
    s.post ⟨pk.spkg, pk.sstn, 0⟩ 0 (.requestTimeout pk.agent (paPkg pk.dest) (paStn pk.dest))
  else match s.refusal pk full with
    | 0 => f (s.accept pk)
    | r => s.refuse pk r

/-- A transfer packet: one of an fo or of a collective delivery, which R388 tracks by source and TAG. -/
def inTransfer (pk : Packet) : Bool := pk.id % 16 == 13 || pk.id % 16 == 9
/-- The number of a source context, for the tracking of its transfers. -/
def xferKey (pk : Packet) : Nat := srcKey pk.agent pk.spkg pk.sstn * 4 + pk.sctx
/-- What a station notes of a transfer's STORE, beside its source and TAG: the AUX that it failed with, or 0 while it is on its way to the place that
REDIRECT named (R172, R377, R388; DESIGN CHOICE, log entry 80). -/
def State.noteStore (s : State) (pk : Packet) (aux : Nat) : State :=
  if inTransfer pk then s.modDieAt (paPkg pk.dest) (paStn pk.dest) fun d => { d with xfers := d.xfers ++ [(xferKey pk, pk.tag, aux)] } else s

/-- A forwarded page answers with REDIRECT, or a COLL with AUX 0x01; else the request is served (R377). A request under a forward entry whose page has no
record is answered with AUX 0x01, since nothing is mapped there (R148; DESIGN CHOICE, log entry 58). -/
def State.forwarded (s : State) (pk : Packet) (f : State → State) : State :=
  match s.forward pk.dest with
  | .error a => (s.logAux pk a).answer pk a []
  | .ok (some (_, w1)) =>
    if pk.typ = 7 then (s.logAux pk 1).answer pk 1 []
    else (if pk.typ = 3 ∧ pk.fwd = 0 then s.noteStore pk 0 else s).reply pk (.redirect { pk with
      typ := 8, seq := 0, enc := false, ichk := false, rc := false, data := leBytes 8 (bits w1 55 16 * 2 ^ 16 + bits w1 1 0) })
  | .ok none => if pk.fwd = 0 ∧ mapsNothing pk.via.2.2 then (s.logAux pk 1).answer pk 1 [] else f s

/-! ### Headers as an fi receives them (R174, R178) -/

/-- Word 0 of a packet. -/
def header0 (pk : Packet) : Nat :=
  pk.typ % 16 + pk.rc.toNat * 2 ^ 4 + pk.size % 256 * 2 ^ 8 + pk.dest % 2 ^ 56 * 2 ^ 16 + pk.spkg % 16 * 2 ^ 72 + pk.sstn % 16 * 2 ^ 76 +
    pk.agent % 64 * 2 ^ 80 + pk.sctx % 4 * 2 ^ 86 + pk.tag % 2 ^ 16 * 2 ^ 88 + pk.aux % 256 * 2 ^ 104 + pk.seq % 2 ^ 16 * 2 ^ 112
/-- Word 1 of a packet. -/
def header1 (pk : Packet) : Nat :=
  pk.enc.toNat + pk.ichk.toNat * 2 + pk.faddr % 2 ^ 56 * 2 ^ 8 + pk.fval % 2 ^ 64 * 2 ^ 64
/-- The payload in words of 16 bytes. -/
def payloadWords : Nat → List Byte → List (BitVec 128)
  | 0, _ => []
  | n + 1, bs => BitVec.ofNat 128 (leNat (bs.take 16)) :: payloadWords n (bs.drop 16)
/-- A packet as words. -/
def packetWords (pk : Packet) : List (BitVec 128) :=
  BitVec.ofNat 128 (header0 pk) :: BitVec.ofNat 128 (header1 pk) :: payloadWords ((pk.size + 15) / 16) pk.data

/-! ### Serving loads and stores -/

/-- An access of memory that spans two 64-byte lines is applied in two parts (R155). -/
def State.splits (s : State) (pk : Packet) : Bool := !s.isReg pk.dest && decide (partCut pk < pk.size)
/-- The engine queues a request, and will apply it. -/
def State.toEngine (s : State) (e : Nat × Nat × Nat) (pk : Packet) : State :=
  (s.modDieAt e.1 e.2.1 fun x => { x with atomq := tmod [] x.atomq e.2.2 (· ++ [pk]) }).post ⟨e.1, e.2.1, 0⟩ 0 (.atomicEngineApply e.2.2)

/-- A request enters its home: in two parts where it spans two lines, through the engine of its line where that engine comes first, or at once. -/
def State.takeIn (s : State) (pk : Packet) (f : State → State) : State :=
  if s.splits pk then
    let a := { pk with part := 1 }
    let b := { pk with part := 2 }
    (s.toEngine (atomicEngine (partPlace a).1) a).toEngine (atomicEngine (partPlace b).1) b
  else if s.portWindow pk.dest then f s
  else match s.heldLine pk.dest with
    | some e => s.toEngine e pk
    | none => f s
/-- The other part of a request, wherever it is queued at the die, changes. -/
def State.onPart (s : State) (pk : Packet) (k : Nat) (f : Packet → Option Packet) : State :=
  let (p, d, _) := atomicEngine pk.dest
  let g (q : Packet) : Option Packet := if q.part = k ∧ sameRequest q pk ∧ q.spkg = pk.spkg ∧ q.sstn = pk.sstn then f q else some q
  s.modDieAt p d fun x => { x with atomq := x.atomq.map fun e => (e.1, e.2.filterMap g) }

/-- A LOADREQ, or a part of one, applied; the last part is answered with all bytes (R175, R361). -/
def State.serveLoad (s : State) (pk : Packet) : State :=
  match s.homeRead { pk with dest := (partPlace pk).1 } (partPlace pk).2 with
  | .ok (s, b) =>
    if pk.part = 1 then s.onPart pk 2 fun q => some { q with data := b } else s.answer pk 0 ((if pk.part = 2 then pk.data else []) ++ b)
  | .error a => ((s.logAux pk a).onPart pk 2 fun _ => none).answer pk a []

/-- What the home knows of the transfer that a STORELAST ends (R388): at the station, and for a STORELAST that was itself redirected at all of them. -/
def State.xferDies (s : State) (pk : Packet) : List (Nat × Die) := s.dies.filter fun e => pk.fwd != 0 || e.1 == dieKey (paPkg pk.dest) (paStn pk.dest)
/-- An entry about the transfer of a packet. -/
def ofTransfer (pk : Packet) (e : Nat × Nat × Nat) : Bool := e.1 == xferKey pk && e.2.1 == pk.tag
/-- What is noted of the STOREs of a packet's transfer, the earliest first. -/
def State.xferNotes (s : State) (pk : Packet) : List Nat := (s.xferDies pk).flatMap fun e => (e.2.xfers.filter (ofTransfer pk)).map (·.2.2)
/-- The transfer is over: nothing is noted of it any more. -/
def State.xferEnds (s : State) (pk : Packet) : State :=
  (s.xferDies pk).foldl (fun s e => s.modDieAt (e.1 / 16) (e.1 % 16) fun d => { d with xfers := d.xfers.filter fun x => !ofTransfer pk x }) s
/-- A STORE of the same transfer waits at the home to be applied (R172). -/
def State.transferQueued (s : State) (pk : Packet) : Bool :=
  let (p, d, _) := atomicEngine pk.dest
  (s.dieAt p d).queued.any fun q => q.typ == 3 && inTransfer q && xferKey q == xferKey pk && q.tag == pk.tag && paStn q.dest == paStn pk.dest

/-- A write of host memory awaits its completion: `pk` is answered then, or nothing for a unit's write, of type 0 (R190). -/
def State.postHost (s : State) (pk : Packet) : State :=
  let k := s.host.nextTag
  ({ s with host := { s.host with nextTag := k + 1, posted := s.host.posted ++ [(k, pk)] } } : State).post
    ⟨paPkg pk.dest, paStn pk.dest, 0⟩ 0 (.hostCompletion k)
/-- Writes of host memory with these tags, from the first up to before the second, are not all completed (R190). -/
def State.hostOut (s : State) (r : Nat × Nat) : Bool := s.host.posted.any fun e => decide (r.1 ≤ e.1) && decide (e.1 < r.2)
/-- The answer of an applied write, with the bytes that go back: at once, or once the host has completed the write, or the flag's write, to
its memory (R159, R190). -/
def State.ackWrite (s : State) (pk : Packet) (data : List Byte) : State :=
  if s.regionKind pk.dest = some 2 ∨ (pk.typ = 4 ∧ s.regionKind pk.faddr = some 2) then s.postHost { pk with data := data } else s.answer pk 0 data

/-- The AUX that a STORE meets over all its bytes before any is applied: memory alone can be written in parts. -/
def State.storeAux (s : State) (pk : Packet) : Nat :=
  match s.memWrite pk false (pk.data.take pk.size) with
  | .ok _ => 0
  | .error a => a
/-- The data of a STORE or STORELAST, or a part of it, is applied, at memory or whole in an fi: the AUX it meets. -/
def State.applyStore (s : State) (pk : Packet) : State × Nat :=
  match s.portOf pk.dest with
  | some (l, c, p) =>
    (s.modCtxAt l c fun x => x.onQ fun q =>
      { q with fi := tmod Fi.reset q.fi p fun f => ⟨f.words ++ (packetWords pk).map fun w => (⟨w, 0, 0, none, 0⟩ : FiWord)⟩ }, 0)
  | none =>
    if pk.part = 1 ∧ s.storeAux pk ≠ 0 then (s, s.storeAux pk)
    else match s.homeWrite { pk with dest := (partPlace pk).1 } false (((pk.data.take pk.size).drop ((partPlace pk).1 - pk.dest)).take (partPlace pk).2) with
      | .ok s => (s, 0)
      | .error a => (s, a)

/-- A STORE, or a part of one, applied; the last part is acknowledged. -/
def State.serveStore (s : State) (pk : Packet) : State :=
  match s.applyStore pk with
  | (s, 0) => if pk.part = 1 then s else s.ackWrite pk []
  | (s, a) => (((s.logAux pk a).noteStore pk a).onPart pk 2 fun _ => none).answer pk a []

/-- A flag store that fails is logged at the home of its transfer, with the flag's address (R362). -/
def State.logFlag (s : State) (pk : Packet) (aux : Nat) : State :=
  s.logError (paPkg pk.dest) (paStn pk.dest) (auxCode aux) pk.spkg pk.sstn pk.sctx pk.agent pk.faddr 0 0

/-- The flag's page is held (R377). -/
def State.flagHeld (s : State) (pk : Packet) : Bool := match s.forward pk.faddr with | .ok (some (w0, _)) => bit w0 1 | _ => false
/-- A STORELAST waits for STOREs of its transfer that are not yet applied, here or at the place that REDIRECT named, and for a held page of its flag
(R172, R377). -/
def State.lastWaits (s : State) (pk : Packet) : Bool := s.transferQueued pk || (s.xferNotes pk).contains 0 || s.flagHeld pk
/-- The AUX that a flag's store meets: the flag lies at the station of its transfer, in a page that no record forwards. -/
def State.flagAux (s : State) (pk : Packet) : Nat :=
  if paPkg pk.faddr ≠ paPkg pk.dest ∨ paStn pk.faddr ≠ paStn pk.dest then 1
  else match s.forward pk.faddr with
    | .error a => a
    | .ok (some _) => 1
    | .ok none => match s.rawWrite { pk with dest := pk.faddr } false (leBytes 8 pk.fval) with | .ok _ => 0 | .error a => a
/-- A STORELAST that fails is not applied and writes no flag (R375, R388). AUX 0x44, inside the model alone, says that its own flag store, or its own
data, failed. -/
def State.lastFails (s : State) (pk : Packet) : Option State :=
  match (s.xferNotes pk).find? (· ≠ 0) with
  | some a => some (((s.logAux pk a).xferEnds pk).answer pk a [])
  | none =>
    let own := if (s.portOf pk.dest).isSome then 0 else s.storeAux pk
    if own ≠ 0 then some (((s.logAux pk own).xferEnds pk).answer pk 0x44 [])
    else if s.flagAux pk ≠ 0 then some (((s.logFlag pk (s.flagAux pk)).xferEnds pk).answer pk 0x44 [])
    else none
/-- The flag of a STORELAST is written once all data of the transfer is applied (R172, R388). -/
def State.writeFlag (s : State) (pk : Packet) : State :=
  let s := s.xferEnds pk
  match (if s.flagAux pk = 0 then s.homeWrite { pk with dest := pk.faddr, size := 8 } false (leBytes 8 pk.fval) else .error (s.flagAux pk)) with
  | .ok s => s.ackWrite pk []
  | .error a => (s.logFlag pk a).answer pk 0x44 []
/-- The flag's turn: through the engine of its line, or at once. -/
def State.flagTurn (s : State) (pk : Packet) : State :=
  if s.flagHeld pk || (s.heldLine pk.faddr).isSome then s.toEngine (atomicEngine pk.faddr) { pk with part := 3 } else s.writeFlag pk
/-- A STORELAST, or a part of one: its data, then its flag. -/
def State.serveLast (s : State) (pk : Packet) : State :=
  if pk.part = 3 then (if s.flagHeld pk then s.toEngine (atomicEngine pk.faddr) pk else s.writeFlag pk)
  else match s.applyStore pk with
    | (s, 0) => if pk.part = 1 then s else s.flagTurn pk
    | (s, a) => (((s.logAux pk a).xferEnds pk).onPart pk 2 fun _ => none).answer pk 0x44 []
/-- A STORELAST enters its home once nothing of its transfer is to come; until then it stands in the queue of its flag's engine, as part 4. -/
def State.lastIn (s : State) (pk : Packet) : State :=
  if s.lastWaits pk then s.toEngine (atomicEngine pk.faddr) { pk with part := 4 }
  else match s.lastFails pk with
    | some s => s
    | none => s.takeIn { pk with part := 0 } fun s => s.serveLast { pk with part := 0 }

/-! ### Atomic engines (R168 to R171) -/

/-- min or max of two elements of an atomic type (R103, R170). -/
def atomMinMax (big : Bool) (ty old v : Nat) : Nat :=
  match ty with
  | 4 => (elMinMax 0 big 0 old v).1
  | 2 | 3 => if big then max old v else min old v
  | _ =>
    let n := if ty = 0 then 32 else 64
    let le := decide (sextN old n ≤ sextN v n)
    if big then (if le then v else old) else (if le then old else v)
/-- The new value of an atomic (R170): operations 0 add, 1 min, 2 max, 3 and, 4 or, 5 xor, 6 swap, 7 cas. -/
def atomNew (op ty old v cmp : Nat) : Nat :=
  let m := if ty = 0 ∨ ty = 2 ∨ ty = 4 then 2 ^ 32 else 2 ^ 64
  match op with
  | 0 => if ty = 4 then (elAdd 0 0 old v).1 else (old + v) % m
  | 1 => atomMinMax false ty old v
  | 2 => atomMinMax true ty old v
  | 3 => old &&& v
  | 4 => old ||| v
  | 5 => old ^^^ v
  | 6 => v
  | _ => if old = cmp then v else old

/-- An atomic applied at its home through its engine: old goes back (R170). AUX holds the operation and the type. -/
def State.serveAtomic (s : State) (pk : Packet) : State :=
  let n := pk.size
  let op := pk.aux / 8
  let ty := pk.aux % 8
  let fail (a : Nat) : State := (s.logAux pk a).answer pk a []
  if s.portWindow pk.dest then fail 3
  else
    let old : Except Nat (List Byte) := if s.isReg pk.dest then s.devRead pk n else s.memRead { pk with ichk := true } n
    match old with
    | .error a => fail a
    | .ok b =>
      let new := atomNew op ty (leNat b) (leNat (pk.data.take n)) (leNat ((pk.data.drop 8).take n))
      match s.homeWrite pk true (leBytes n new) with
      | .error a => fail a
      | .ok s => s.ackWrite { pk with aux := 0 } (b ++ List.replicate (16 - n) 0)

/-- The engine holds the line of its last atomic, up to 64 lines; for a 65th it gives up the line whose last atomic is oldest (DESIGN CHOICE, log
entry 56: R14 gives the number alone). -/
def Die.hold (d : Die) (e line : Nat) : Die := { d with hot := tmod [] d.hot e fun l => (line :: l.filter (· != line)).take 64 }

/-- The upper part of an access waits for its lower part (R155). -/
def Die.partWaits (d : Die) (pk : Packet) : Bool :=
  pk.part == 2 && d.queued.any fun q => q.part == 1 && sameRequest q pk && q.spkg == pk.spkg && q.sstn == pk.sstn
/-- The request at the head of an engine's queue is applied, and its line held behind an atomic; the upper part of an access waits for its lower
part (R155, R168). -/
def State.applyHead (s : State) (p d e : Nat) : State :=
  match tget [] (s.dieAt p d).atomq e with
  | [] => s
  | pk :: t =>
    if (s.dieAt p d).partWaits pk then s
    else
      let s := s.modDieAt p d fun x => { x with atomq := tset x.atomq e t }
      match pk.typ with
      | 5 => (s.modDieAt p d fun x => x.hold e (pk.dest / 64)).serveAtomic pk
      | 1 => s.serveLoad pk
      | 4 => if pk.part = 4 then s.lastIn pk else s.serveLast pk
      | _ => s.serveStore pk
/-- ATOMIC_ENGINE_APPLY (R155, R169, R170): the request at the head of an engine's queue is applied. -/
def execAtomicEngineApply (e : Nat) (s : State) : Out :=
  .next (
    match tget [] s.die.atomq e with
    | [] => s
    | pk :: _ => if s.die.partWaits pk then s.post s.focus 0 (.atomicEngineApply e) else s.applyHead s.focus.pkg s.focus.die e)
/-- The engines of a die apply what they have queued until no request of a kind is left among it, or none can go on. -/
def State.drain (s : State) (p d : Nat) (want : Packet → Bool) : Nat → State
  | 0 => s
  | n + 1 => if (s.dieAt p d).queued.any want then ((List.range 5).foldl (fun s e => s.applyHead p d e) s).drain p d want n else s
/-- Before a request is applied, so are those of its source which the home took before it (R156, R189). -/
def State.settleSource (s : State) (pk : Packet) : State :=
  let (p, d, _) := atomicEngine pk.dest
  s.drain p d (fun q => q.agent == pk.agent && q.spkg == pk.spkg && q.sstn == pk.sstn && paStn q.dest == paStn pk.dest) (s.dieAt p d).queued.length
/-- Before the lines of an access by a unit are touched, so are they by what stands in their engines' queues (R155, R168). -/
def State.settleLines (s : State) (pa n : Nat) : State :=
  let (p, d, _) := atomicEngine pa
  s.drain p d (onLines pa n) (s.dieAt p d).queued.length

/-- A request at its station: accepted, in its source's order, at the page where it now is (R156, R180, R377). -/
def State.taken (s : State) (pk : Packet) (full : Bool) (f : State → State) : State :=
  s.arrive pk full fun s => (s.settleSource pk).forwarded pk f
/-- LOADREQ (R175). -/
def execLoadreq (pk : Packet) (full : Bool) (s : State) : Out := .next (s.taken pk full fun s => s.takeIn pk fun s => s.serveLoad pk)
/-- STORE (R175, R178). -/
def execStore (pk : Packet) (full : Bool) (s : State) : Out := .next (s.taken pk full fun s => s.takeIn pk fun s => s.serveStore pk)
/-- STORELAST (R172). -/
def execStorelast (pk : Packet) (full : Bool) (s : State) : Out := .next (s.taken pk full fun s => s.lastIn pk)
/-- ATOMIC (R168, R175): it is queued to the engine of its line; one to a port goes no further (R178). -/
def execAtomic (pk : Packet) (full : Bool) (s : State) : Out :=
  .next (s.taken pk full fun s => if s.portWindow pk.dest then s.serveAtomic pk else s.toEngine (atomicEngine pk.dest) pk)

/-- UNDEFINED_PACKET (R387): the slot is discarded and logged; no answer goes out, so the source ends under R386. -/
def execUndefinedPacket (pk : Packet) (s : State) : Out :=
  .next ((s.logError (paPkg pk.dest) (paStn pk.dest) 0x0403 pk.spkg pk.sstn pk.sctx pk.agent pk.dest 0 0).post ⟨pk.spkg, pk.sstn, 0⟩ 0
    (.requestTimeout pk.agent (paPkg pk.dest) (paStn pk.dest)))

/-- HOST_COMPLETION (R190): the completion behind a write to host memory has come back, and the write is acknowledged. -/
def execHostCompletion (k : Nat) (s : State) : Out :=
  .next (
    match s.host.posted.find? fun e => e.1 == k with
    | none => s
    | some e =>
      let s : State := { s with host := { s.host with posted := s.host.posted.filter fun x => x.1 != k } }
      if e.2.typ = 0 then s else s.answer e.2 0 e.2.data)

/-! ### Accesses by physical address from a unit of a die: ENC = 1, ICHK = 1 (R149) -/

/-- The packet of a unit's access. -/
def unitPacket (l : Loc) (agent typ pa n : Nat) : Packet :=
  { blankPacket with typ := typ, size := n, dest := pa, agent := agent, spkg := l.pkg, sstn := l.die }
/-- The AUX with which a unit's access is lost. -/
def lostAux (code : Nat) : Nat := if code = 0x0401 then 0x41 else if code = 0x0402 then 0x42 else if code / 0x100 = 3 then code % 0x100 else 0xFF
/-- Where a unit's access is applied: through forward records (R377), or nowhere, with its AUX. It is one step, so that it has nothing to wait in: a
page that is held is accessed at its old home (DESIGN CHOICE, log entry 79). -/
def State.unitReach (s : State) (l : Loc) (agent pa n : Nat) : State × Except Nat Nat :=
  match s.reach l 0 pa 5 with
  | .at_ a => (s.settleLines a n, .ok a)
  | .wait => (s.settleLines pa n, .ok pa)
  | .lost code e => (s.logReach l 0 agent e, .error (lostAux code))
/-- A read by a unit of a die. -/
def State.unitRead (s : State) (l : Loc) (agent pa n : Nat) : State × Except Nat (List Byte) :=
  match s.unitReach l agent pa n with
  | (s, .error a) => (s, .error a)
  | (s, .ok pa) => match s.homeRead (unitPacket l agent 1 pa n) n with
    | .ok (s, b) => (s, .ok b)
    | .error a => (s.logAux (unitPacket l agent 1 pa n) a, .error a)
/-- A write by a unit of a die: its AUX, 0 when it is applied. One of host memory awaits its completion there (R190). -/
def State.unitWrite (s : State) (l : Loc) (agent pa : Nat) (bs : List Byte) : State × Nat :=
  match s.unitReach l agent pa bs.length with
  | (s, .error a) => (s, a)
  | (s, .ok pa) =>
    let pk := unitPacket l agent 3 pa bs.length
    match s.homeWrite pk false bs with
    | .ok s => (if s.regionKind pa = some 2 then s.postHost { pk with typ := 0 } else s, 0)
    | .error a => (s.logAux pk a, a)
/-- A unit's write whose failure changes nothing else. -/
def State.unitPut (s : State) (l : Loc) (agent pa : Nat) (bs : List Byte) : State := (s.unitWrite l agent pa bs).1

end Sys2Proof.Machine
end

