-- ==== Sys2Proof/Machine/Collective.lean ====
section
/-! DEFINITION. The collective engine at the home of a group: contributions, folding, delivery (R183 to R186). -/

namespace Sys2Proof.Machine

/-! ### A member's operation ends (R166, R185, R375) -/

/-- A COLL ends for its member: its tlk operation completes, with its error if it failed. -/
def Queues.collEnd (q : Queues) (num code faddr : Nat) : Queues :=
  match q.colls.find? fun k => k.num == num with
  | none => q
  | some k =>
    let q := ({ q with colls := q.colls.filter fun x => x.num != num } : Queues).complete 3 num
    if code = 0 then q else q.defer ⟨k.ser, 3, num, code, faddr⟩
/-- A COLL of its member fails: it ends once every packet that it sent is answered. -/
def Queues.collFail (q : Queues) (num code faddr : Nat) : Queues :=
  match q.colls.find? fun k => k.num == num with
  | none => q
  | some k =>
    let k : CollOp := { k with io := false, err := if k.err = 0 then code else k.err, faddr := if k.err = 0 then faddr else k.faddr }
    if k.out = 0 then q.collEnd num k.err k.faddr else { q with colls := q.colls.map fun x => if x.num = num then k else x }

/-! ### Groups at the home engine (R184) -/

/-- The member's command that a contribution belongs to: core and command. -/
def State.collSource (s : State) (pk : Packet) : Option (Nat × CollOp) :=
  let n := pk.id / 16
  let l : Loc := ⟨pk.spkg, pk.sstn, n % 32⟩
  ((s.ctxAt l pk.sctx).q.colls.find? fun k => k.num == n / 32).map fun k => (locKey l, k)
/-- The current instance of a group, from the engine header of its slot buffer: its first two bytes (R184; log entry 21). -/
def State.collCur (s : State) (buf : Nat) : Nat := leNat (Memory.read (s.dieAt (paPkg buf) (paStn buf)).store.mem (paOff buf) 2)
/-- A group as its home engine holds it; a header that software has zeroed starts it anew. -/
def State.collGroup (s : State) (buf : Nat) : CollGroup :=
  let cur := s.collCur buf
  match (s.dieAt (paPkg buf) (paStn buf)).colls.find? fun g => g.buf == buf with
  | some g => if g.cur = cur then g else ⟨buf, cur, [], 0, false⟩
  | none => ⟨buf, cur, [], 0, false⟩
/-- How far ahead of the current instance a contribution is. -/
def State.collAhead (s : State) (pk : Packet) : Nat := (pk.fval % 2 ^ 16 + 2 ^ 16 - s.collCur pk.dest) % 2 ^ 16
def State.setGroup (s : State) (g : CollGroup) : State :=
  s.modDieAt (paPkg g.buf) (paStn g.buf) fun d => { d with colls := g :: d.colls.filter fun x => x.buf != g.buf }
/-- The current operation of a group. -/
def CollGroup.now (g : CollGroup) : Option CollInst := g.insts.find? fun i => i.inst == g.cur
def CollGroup.put (g : CollGroup) (i : CollInst) : CollGroup := { g with insts := i :: g.insts.filter fun x => x.inst != i.inst }
/-- The engine goes on with a group by itself. -/
def State.collKick (s : State) (buf : Nat) : State :=
  s.post ⟨paPkg buf, paStn buf, 0⟩ 0 (.collPacket { blankPacket with typ := 7, dest := buf, part := 2 } false)

/-! ### Folding (R110, R185, R186) -/

/-- One step of a fold (R110, R186): the running value and its member against contribution `c` of member `j`. -/
def collStep (op fmt : Nat) (t : Nat × Nat) (c j : Nat) : Nat × Nat :=
  match op with
  | 0 => ((elAdd 0 fmt t.1 c).1, 0)
  | 1 => ((elMul 0 fmt t.1 c).1, 0)
  | 2 => ((elMinMax 0 false fmt t.1 c).1, 0)
  | 3 => ((elMinMax 0 true fmt t.1 c).1, 0)
  | 4 => (t.1 ||| c, 0)
  | 5 => (t.1 &&& c, 0)
  | _ =>
    let m := (elMinMax 0 false fmt t.1 c).1
    if fmt = 0 ∧ (toExt 0 false t.1).isNan then (m, t.2)
    else if fmt = 0 ∧ (toExt 0 false c).isNan then (m, j)
    else
      let lower := if fmt = 8 then decide (sextN c 32 < sextN t.1 32) else decide (m ≠ t.1)
      if lower then (c, j) else t

/-- Where a byte of member `j`'s contribution landed. -/
def CollInst.place (i : CollInst) (j byte : Nat) : Option Nat :=
  (i.places.find? fun p => p.1 == j && decide (p.2.1 ≤ byte) && decide (byte < p.2.1 + p.2.2.1)).map fun p => p.2.2.2 + (byte - p.2.1)
/-- The member's block or source was written while its operation ran (R313). -/
def State.collRaced (s : State) (i : CollInst) (j : Nat) : Bool :=
  let m := tget (0, 0, 0, 0, []) i.members j
  (s.ctxAt (keyLoc m.1) m.2.1).q.colls.any fun k => k.num == m.2.2.1 && k.raced
/-- Element `e` of member `j`'s contribution, in the slot buffer; undefined under R313. -/
def State.contribution (s : State) (i : CollInst) (j e : Nat) : Nat :=
  let n := collSize (blkFmt i.blk)
  if s.collRaced i j then s.free (2 ^ 58 + j * 2 ^ 20 + e) (8 * n)
  else match i.place j (e * n) with
    | some pa => leNat (Memory.read (s.dieAt (paPkg pa) (paStn pa)).store.mem (paOff pa) n)
    | none => 0
/-- Contributions fully landed are folded in member order; with the last, the result is to be delivered to every member (R185). -/
def State.collFold (s : State) : Nat → CollInst → CollInst
  | 0, i => i
  | k + 1, i =>
    let N := blkN i.blk
    let j := i.folded
    if j < blkM i.blk ∧ tget 0 i.landed j = N then
      let acc := if j = 0 then (List.range N).map fun e => (s.contribution i j e, 0)
        else i.acc.zipIdx.map fun x => collStep (blkOp i.blk) (blkFmt i.blk) x.1 (s.contribution i j x.2) j
      s.collFold k { i with acc := acc, folded := j + 1, left := if j + 1 = blkM i.blk then some (List.range (j + 1)) else i.left }
    else i

/-- The bytes of the result. -/
def CollInst.result (i : CollInst) : List Byte :=
  i.acc.flatMap fun x => if blkOp i.blk = 6 then leBytes 4 x.1 ++ leBytes 4 x.2 else leBytes (collSize (blkFmt i.blk)) x.1

/-! ### Delivery (R185, R388) -/

/-- The member whose result is under way is done, with its error or 0. -/
def State.collMemberDone (s : State) (g : CollGroup) (i : CollInst) (j code va : Nat) : State :=
  let m := tget (0, 0, 0, 0, []) i.members j
  let s := s.setGroup { g.put { i with left := i.left.map fun l => l.drop 1 } with off := 0, out := false }
  s.onCtx (keyLoc m.1) m.2.1 fun s => s.modQ fun q => q.collEnd m.2.2.1 code va
/-- Where a delivery's flag goes: nowhere where none is asked for or its page does not translate; an error where a walker is busy. -/
def State.collFlag (s : State) (l : Loc) (root va : Nat) : State × Except Unit (Option Nat) :=
  if va = 0 then (s, .ok none)
  else match s.translateNow l root va 1 with
    | (s, .ok pa _) => (s, .ok (some pa))
    | (s, .miss) => (s, .error ())
    | (s, .fail _) => (s, .ok none)
/-- The next packet of the delivery to member `j`: a STORE within one 128-byte line, the last one with the flag. -/
def State.collSend (s : State) (g : CollGroup) (i : CollInst) (j : Nat) : State :=
  let m := tget (0, 0, 0, 0, []) i.members j
  let l : Loc := ⟨paPkg g.buf, paStn g.buf, 20⟩
  let root := m.2.2.2.1
  let b := m.2.2.2.2
  let res := i.result
  let va := (blkDst b + g.off) % 2 ^ 56
  let n := min (128 - va % 128) (res.length - g.off)
  match s.translateNow l root va 1 with
  | (s, .miss) => s.collKick g.buf
  | (s, .fail c) => (s.collMemberDone g i j c va).collKick g.buf
  | (s, .ok pa pte) =>
    if !s.canSend l 40 pa then s.collKick g.buf
    else
      match (if g.off + n = res.length then s.collFlag l root (blkFlag b) else (s, .ok none)) with
      | (s, .error _) => s.collKick g.buf
      | (s, .ok flag) =>
      let pk : Packet := underLeaf { blankPacket with
        typ := if flag.isSome then 4 else 3, size := n, dest := pa, agent := 40, sctx := m.2.1, tag := (i.inst * 256 + j) % 2 ^ 16
        faddr := flag.getD 0, fval := blkFval b, id := idCollOut (2 * g.buf + flag.isSome.toNat), data := (res.drop g.off).take n } root va pte
      (s.setGroup { g with out := true }).request l pk
/-- The engine's access of a slot buffer. -/
def collAccess (buf typ pa n : Nat) : Packet :=
  { blankPacket with typ := typ, size := n, dest := pa, agent := 40, spkg := paPkg buf, sstn := paStn buf }
/-- The watches of the home see the contributions that a fold has read (R384). -/
def State.seeFolded (s : State) (buf : Nat) (i : CollInst) (done : Nat) : State :=
  (i.places.filter fun p => decide (i.folded ≤ p.1) && decide (p.1 < done)).foldl (fun s p =>
    s.watchAll (collAccess buf 1 p.2.2.2 p.2.2.1) true p.2.2.1 (Memory.read (s.dieAt (paPkg p.2.2.2) (paStn p.2.2.2)).store.mem (paOff p.2.2.2) p.2.2.1)) s
/-- The engine header names the next instance (R184; log entry 21), under the ENC that it stands in. -/
def State.setHeader (s : State) (buf cur : Nat) : State :=
  let pk : Packet := { collAccess buf 3 buf 2 with enc := !(s.dieAt (paPkg buf) (paStn buf)).store.plain.contains (paOff buf / 64) }
  match s.homeWrite pk false (leBytes 2 cur) with
  | .ok s => s
  | .error a => s.logAux pk a
/-- The current instance is folded as far as it has landed, and then delivered to its members in turn; after the last of them the next instance
is current. -/
def State.collGo (s : State) (buf : Nat) : Nat → State
  | 0 => s
  | k + 1 =>
    let g := s.collGroup buf
    match g.now with
    | none => s
    | some i =>
      let s := i.places.foldl (fun s p => s.settleLines p.2.2.2 p.2.2.1) s
      let s := s.seeFolded buf i (s.collFold 256 i).folded
      let i := s.collFold 256 i
      let g := g.put i
      match i.left with
      | none => s.setGroup g
      | some [] =>
        let cur := (g.cur + 1) % 2 ^ 16
        ((s.setHeader buf cur).setGroup { g with cur := cur, insts := g.insts.filter fun x => x.inst != i.inst, off := 0, out := false }).collGo buf k
      | some (j :: _) => if g.out then s.setGroup g else (s.setGroup g).collSend g i j
/-- The transfer of the delivery to a member, for what stations note of it (R388). -/
def collTransfer (g : CollGroup) (i : CollInst) (j : Nat) : Packet :=
  { collAccess g.buf 3 0 0 with sctx := (tget (0, 0, 0, 0, []) i.members j).2.1, tag := (i.inst * 256 + j) % 2 ^ 16, fwd := 1 }
/-- A packet of the delivery is answered; the last one, sent as a STORE because its flag does not translate, leaves the flag's failure. -/
def State.collOutBack (s : State) (buf code n : Nat) (flagged : Bool) : State :=
  let g := s.collGroup buf
  match g.now with
  | some i => match i.left with
    | some (j :: _) =>
      let b := (tget (0, 0, 0, 0, []) i.members j).2.2.2.2
      let s :=
        if code ≠ 0 then (s.xferEnds (collTransfer g i j)).collMemberDone g i j code (if code = 0x0404 then blkFlag b % 2 ^ 56 else (blkDst b + g.off) % 2 ^ 56)
        else if g.off + n < i.result.length then s.setGroup { g with off := g.off + n, out := false }
        else if flagged || blkFlag b = 0 then s.collMemberDone g i j 0 0
        else s.collMemberDone g i j 0x0404 (blkFlag b % 2 ^ 56)
      s.collGo buf 3
    | _ => s
  | none => s

/-! ### Contributions (R183, R184) -/

/-- The virtual address of a byte of a member's slot. -/
def collSlot (blk : List Nat) (inst idx byte : Nat) : Nat := blkGroup blk + 64 + ((inst % 2) * blkM blk + idx) * blkBytes blk + byte
/-- Bytes cut at pages of 64 KiB. -/
def pagePieces : Nat → Nat → List Byte → List (Nat × List Byte)
  | 0, _, _ => []
  | n + 1, va, bs => if bs.isEmpty then [] else let k := 65536 - va % 65536; (va, bs.take k) :: pagePieces n (va + k) (bs.drop k)
/-- A piece of a slot at its home: its virtual address, its place, its ENC and its bytes. -/
structure SlotPiece where
  va : Nat
  pa : Nat
  enc : Bool
  bytes : List Byte
/-- The pieces' places under the member's page tables: an error gives its AUX and virtual address, with AUX 0 where it waits for a walker or a held
page. A page that a record forwards, or that a forward entry names, is not present (R148, R377). -/
def State.collPlaces (s : State) (l : Loc) (root : Nat) : List (Nat × List Byte) → State × Except (Nat × Nat) (List SlotPiece)
  | [] => (s, .ok [])
  | p :: t =>
    match s.translateNow l root p.1 1 with
    | (s, .miss) => (s, .error (0, p.1))
    | (s, .fail c) => (s, .error (lostAux c, p.1))
    | (s, .ok pa pte) => match s.forward pa with
      | .error a => (s, .error (a, p.1))
      | .ok (some (w0, _)) => (s, .error (if bit w0 1 then 0 else 1, p.1))
      | .ok none =>
        if mapsNothing pte then (s, .error (1, p.1))
        else match s.collPlaces l root t with
          | (s, .ok r) => (s, .ok (⟨p.1, pa, pteEnc pte, p.2⟩ :: r))
          | r => r
/-- The pieces are written at their homes: the AUX and virtual address of the first that fails. -/
def State.collStore (s : State) (pk : Packet) : List SlotPiece → State × Nat × Nat
  | [] => (s, 0, 0)
  | p :: t =>
    match (s.settleLines p.pa p.bytes.length).homeWrite { pk with dest := p.pa, enc := p.enc } false p.bytes with
    | .ok s => s.collStore pk t
    | .error a => (s, a, p.va)
/-- Landed places of a contribution's pieces. -/
def placesFrom (idx : Nat) : Nat → List SlotPiece → List (Nat × Nat × Nat × Nat)
  | _, [] => []
  | o, p :: t => (idx, o, p.bytes.length, p.pa) :: placesFrom idx (o + p.bytes.length) t
/-- A contribution lands in its member's slot, or is answered with an error that names the address in the slot (R183, R184, R372). -/
def State.collLand (s : State) (pk : Packet) : State :=
  let inst := pk.fval % 2 ^ 16
  let idx := pk.fval / 2 ^ 16 % 2 ^ 16
  let first := pk.fval / 2 ^ 32
  let fail (s : State) (a : Nat) : State := (s.logAux pk a).answer pk a []
  let failAt (s : State) (a va : Nat) : State := (s.logAux pk a).answer { pk with faddr := va % 2 ^ 56 } a []
  match s.collSource pk with
  | none => fail s 0xFF
  | some (l, op) =>
    if 2 ^ 15 ≤ s.collAhead pk then fail s 0xFF
    else
      let g := s.collGroup pk.dest
      let i := (g.insts.find? fun i => i.inst == inst).getD ⟨inst, op.blk, [], [], 0, [], [], none⟩
      let n := collSize (blkFmt op.blk)
      if !collAgree i.blk op.blk then fail s 0xFF
      else match s.collPlaces ⟨paPkg pk.dest, paStn pk.dest, 20⟩ op.root (pagePieces 3 (collSlot op.blk inst idx (first * n)) pk.data) with
        | (s, .error (0, _)) => s.post ⟨paPkg pk.dest, paStn pk.dest, 0⟩ 0 (.collPacket { pk with part := 1 } false)
        | (s, .error (a, va)) => failAt s a va
        | (s, .ok ps) => match s.collStore pk ps with
          | (s, 0, _) =>
            let k := pk.data.length / n
            let had := tget 0 i.landed idx
            let i := { i with
              landed := tset i.landed idx (if first = 0 then k else if first = had then had + k else had)
              places := placesFrom idx (first * n) ps ++ i.places
              members := tset i.members idx (l, pk.sctx, op.num, op.root, op.blk) }
            ((s.setGroup (g.put i)).answer pk 0 []).collGo pk.dest 3
          | (s, a, va) => failAt s a va
/-- COLL_PACKET (R184): refused with reason 6 when it is for an instance beyond the next. One that its engine has taken goes on where it stood. -/
def execCollPacket (pk : Packet) (full : Bool) (s : State) : Out :=
  .next (
    if pk.part = 1 then s.collLand pk
    else if pk.part = 2 then s.collGo pk.dest 3
    else
      let s := s.settleLines pk.dest 64
      let a := s.collAhead pk
      let bad := decide (s.refusal pk full = 0) && decide (2 ≤ a) && decide (a < 2 ^ 15) && (match s.forward pk.dest with | .ok none => true | _ => false)
      if bad && !(s.dieAt (paPkg pk.dest) (paStn pk.dest)).bypassed then s.refuse pk 6
      else s.taken pk full fun s => s.collLand pk)

end Sys2Proof.Machine
end

