-- ==== Sys2Proof/Machine/Answer.lean ====
section
/-! DEFINITION. The source of a request: what an answer, a refusal or a failure does to the operation that waits for it (R176 to R181, R361, R375, R378, R385, R386). -/

namespace Sys2Proof.Machine

/-! ### Faults carried by a checkpoint bundle's response (R369) -/

/-- The response that the context waits for, of a kind of effect, carries a fault: it is reported against its bundle, that of the slot at
the lowest position if several responses of the bundle carry one (R355). -/
def State.waitFault (s : State) (k code faddr : Nat) : State :=
  s.modPipe fun p =>
    match p.waits k with
    | none => p
    | some w =>
      let f : Found := ⟨code, w.ser, s.cyc, w.slot, w.bundle, faddr, none, none⟩
      { p.answered k with fault := match p.fault with | some g => if g.ser = w.ser ∧ g.slot < w.slot then some g else some f | none => some f }
/-- The response of a kind lands: registers written at once and never undone (R84), and the bundle waits for it no more. -/
def State.waitDone (s : State) (k : Nat) (regs : List (Nat × Word)) : State :=
  s.modCtx fun c => { c with
    regs := regs.foldl (fun r e => if e.1 = 0 then r else r.put (.s e.1) (.bits e.2.toNat)) c.regs
    pipe := c.pipe.answered k }

/-! ### What each kind of operation does with its answer: code 0 is success -/

/-- A global load returns (R157, R375). -/
def State.loadBack (s : State) (id code faddr : Nat) (data : List Byte) : State :=
  let s := s.modQ fun q =>
    let q := if code ≠ 0 then q.failLoad id code faddr else
      let f (e : LdEnt) : LdEnt := if e.id = id then { e with done := true, data := data } else e
      { q with ldq := q.ldq.map f, ldKept := q.ldKept.map fun e => (e.1, f e.2), dropped := q.dropped.map f }
    { q with dropped := q.dropped.filter fun e => !e.done }
  s

/-- A LOADRESP enters the fi of its LOADREQ whole (R179, R375). -/
def State.fiBack (s : State) (id code : Nat) (pk : Packet) : State :=
  s.modQ fun q =>
    match q.fiOut.find? fun e => e.id == id with
    | none => q
    | some e =>
      let r : Packet := { pk with typ := 2, size := if code = 0 then pk.size else 0 }
      let ws := (packetWords r).zipIdx.map fun w => (⟨w.1, if w.2 = 0 then code else 0, e.va, some e.ser, id⟩ : FiWord)
      let q := ({ q with fiOut := q.fiOut.filter fun x => x.id != id, fi := tmod Fi.reset q.fi e.port fun f => ⟨f.words ++ ws⟩ } : Queues).complete 2 e.num
      if code = 0 then q else q.defer ⟨id, 2, e.num, code, e.va⟩

/-- The sign or zero extension of an atomic's old value (R310). -/
def atomOld (ty : Nat) (data : List Byte) : Word :=
  let n := leNat (data.take (if ty = 0 ∨ ty = 2 ∨ ty = 4 then 4 else 8))
  if ty = 0 then BitVec.ofInt 64 (sextN n 32) else BitVec.ofNat 64 n

/-- A store-queue entry is answered (R166, R356, R373). -/
def State.storeBack (s : State) (id lane code faddr : Nat) (data : List Byte) : State :=
  match s.ctx.q.stq.find? fun e => e.id == id && e.lane == lane with
  | none => s
  | some e =>
    let s := s.modQ fun q => { q with stq := q.stq.filter fun x => !(x.id == id && x.lane == lane) }
    let done (ctr num : Nat) : State := s.modQ fun q =>
      let q := q.complete ctr num
      if code = 0 then q else q.defer ⟨id, ctr, num, code, faddr⟩
    match e.eff with
    | .store .. => if code = 0 then s else s.modQ fun q => q.defer ⟨id, 5, 0, code, faddr⟩
    | .scat num _ =>
      s.modQ fun q =>
        let q := if code = 0 then q else q.defer ⟨id, 1, num, code, faddr⟩
        if q.stq.any fun x => x.id == id then q else q.complete 1 num
    | .atom num _ ty _ _ _ dst _ =>
      match dst with
      | none => done 4 num
      | some d =>
        let s := s.modQ fun q => q.complete 4 num
        if code = 0 then s.waitDone 0 [(d, atomOld ty data)]
        else (s.modQ fun q => q.noteFailed ⟨id, 4, num, code, faddr⟩).waitFault 0 code faddr
    | .packet _ num .. => done 2 num
    | _ => s

/-- A flag load of a WAITF returns (R205, R314); `final` marks the load at the deadline. -/
def State.waitfBack (s : State) (id final code : Nat) (data : List Byte) : State :=
  s.modPipe fun p =>
    match p.waitf with
    | none => p
    | some w =>
      if w.id ≠ id ∨ w.result.isSome then p
      else if code ≠ 0 then { p with waitf := some { w with due := false, err := code, result := some false } }
      else if leNat data = w.val.toNat then { p with waitf := some { w with due := false, result := some true } }
      else if final = 1 then { p with waitf := some { w with result := some false } }
      else p

/-- A command of the context in focus changes. -/
def State.modCmd (s : State) (num : Nat) (f : Cmd → Cmd) : State :=
  s.modQ fun q => { q with cmds := q.cmds.map fun c => if c.num = num then f c else c }
/-- A command has moved all it will move; its completion follows. -/
def State.copyMoved (s : State) (num code faddr : Nat) : State :=
  (s.modCmd num fun c => { c with stage := 3, io := 0, buf := [], run := 0, bad := false, dirty := [], err := code, faddr := faddr }).post s.focus s.sub (.copyComplete num)
/-- A command has written its line. -/
def State.copyNextLine (s : State) (k : Cmd) : State :=
  let b := s.cb k.cb
  let s := s.modCmd k.num fun _ => k.advance b
  if (k.advance b).finished b then s.copyMoved k.num 0 0 else s
/-- The data of an answer was read from a sector of HBM or second tier that fails its check, of which the request did not ask (R363). -/
def State.readBad (s : State) (pk : Packet) : Bool :=
  let m := (s.dieAt (paPkg pk.dest) (paStn pk.dest)).store
  !pk.data.isEmpty && (s.regionKind pk.dest == some 0 || s.regionKind pk.dest == some 1) &&
    (sectorsOf (paOff pk.dest) pk.data.length).any m.bad.contains
/-- A read or write of a command's line in global memory is answered: it goes on with what is left of the line, and a failure ends it (R304, R375). The
check value of a sector travels with its data (R363). -/
def State.copyBack (s : State) (num code : Nat) (data : List Byte) (bad : Bool) : State :=
  match s.ctx.q.cmds.find? fun k => k.num == num with
  | none => s
  | some k =>
    let b := s.cb k.cb
    let runs := s.lineRuns k
    if code ≠ 0 then
      s.copyMoved num code ((if k.io = 1 then (k.nextPiece b).map (·.1) else (runs[k.run]?).map (·.1)).getD 0 % 2 ^ 56)
    else if k.io = 1 then s.modCmd num fun c => { c.took b data with bad := c.bad || bad }
    else if k.io = 3 then (if k.run + 1 < runs.length then s.modCmd num fun c => { c with io := 2, run := k.run + 1 } else s.copyNextLine k)
    else s

/-- A FLAGW's flag store is answered (R373, R388). -/
def State.flagwBack (s : State) (id code : Nat) : State :=
  s.modQ fun q =>
    match q.flagws.find? fun f => f.id == id with
    | none => q
    | some f =>
      let q := { q with flagws := q.flagws.filter fun x => x.id != id }
      if code = 0 then q else q.defer ⟨id, 5, 0, 0x0404, f.va⟩

/-- A read of a COLL's member block or source is answered (R183, R185). -/
def State.collReadBack (s : State) (num code : Nat) (data : List Byte) : State :=
  s.modQ fun q =>
    match q.colls.find? fun k => k.num == num with
    | none => q
    | some k =>
      let put (k : CollOp) : Queues := { q with colls := q.colls.map fun x => if x.num = num then k else x }
      if code ≠ 0 then q.collFail num code (if k.blk.isEmpty then k.va else (blkSrc k.blk + k.off) % 2 ^ 56)
      else if k.blk.isEmpty then (if collOk data then put { k with io := false, blk := collFields data } else q.collFail num 0x020C k.va)
      else put { k with io := false, off := k.off + data.length, buf := k.buf ++ data }
/-- A contribution packet of a COLL is answered: a failure ends the operation once every packet is answered. -/
def State.collBack (s : State) (num code va : Nat) : State :=
  s.modQ fun q =>
    let q : Queues := { q with colls := q.colls.map fun x => if x.num = num then { x with out := x.out - 1 } else x }
    match q.colls.find? fun k => k.num == num with
    | none => q
    | some k =>
      if code ≠ 0 then q.collFail num code va
      else if k.err ≠ 0 ∧ k.out = 0 then q.collEnd num k.err k.faddr
      else q

/-- The PCIe status of a host read (R416): 0 success, 1 Unsupported Request, 2 Completer Abort. -/
def hostStatus (code : Nat) : Nat := if code = 0 then 0 else if 0x0301 ≤ code ∧ code ≤ 0x0303 then 1 else 2
/-- LAUNCH, REGCMD or TLBINV of a compute die, whose host writes wait for every earlier one (R189). -/
def orderedReg (pa : Nat) : Bool := decide (paStn pa ≤ 7) && [0xFF0000000100, 0xFF0000000108, 0xFF0000000110].contains (paOff pa)
/-- The host port has writes that are not yet answered, redirected ones among them. -/
def State.hostWriting (s : State) (l : Loc) : Bool :=
  (s.dieAt l.pkg l.die).src.any fun r =>
    (r.2.sent.any fun e => e.1.agent == 43 && e.1.typ == 3) || r.2.redir.any fun e => e.2.agent == 43 && e.2.typ == 3
/-- Host accesses go out in arrival order: a read, and a write to a command register, behind every earlier write (R189). A read that the BARs do not
allow, marked by its AUX, is answered in its turn. -/
def State.hostPump (s : State) (l : Loc) : Nat → State
  | 0 => s
  | n + 1 =>
    match s.host.queue with
    | [] => s
    | pk :: t =>
      if (pk.typ == 1 || orderedReg pk.dest) && s.hostWriting l then s
      else if pk.aux ≠ 0 then
        ({ s with host := { s.host with queue := t, answers := s.host.answers ++ [(pk.id / 16, 1, [])] } } : State).hostPump l n
      else if !s.canSend l 43 pk.dest then s
      else (({ s with host := { s.host with queue := t } } : State).request l pk).hostPump l n
/-- A host access is answered, and those that waited for it go out. -/
def State.hostBack (s : State) (tag code : Nat) (pk : Packet) (data : List Byte) : State :=
  let s : State := if pk.typ = 1 ∨ pk.typ = 2 then { s with host := { s.host with answers := s.host.answers ++ [(tag, hostStatus code, data)] } } else s
  s.hostPump ⟨pk.spkg, pk.sstn, 0⟩ s.host.queue.length

/-- The code that an answer's AUX reports (R361); 0x41, 0x42, 0x44 and 0x47 stand inside the model for 0x0401, 0x0402, 0x0404 and 0x0307. -/
def answerCode (aux : Nat) : Nat :=
  match aux with
  | 0 => 0
  | 0x41 => 0x0401
  | 0x42 => 0x0402
  | 0x44 => 0x0404
  | 0x47 => 0x0307
  | _ => auxCode aux
/-- The AUX that stands for a code at the home of a transfer. -/
def codeAux (code : Nat) : Nat := if code = 0x0307 then 0x47 else lostAux code

/-- The virtual address that an entry's failure names (R357). -/
def Queues.failedVa (q : Queues) (kind n : Nat) : Nat :=
  match kind with
  | 3 | 13 =>
    match q.stq.find? fun e => e.id == n / 32 && e.lane == n % 32 with
    | some e => match e.eff with
      | .store va .. => va
      | .scat _ lanes => ((lanes.drop e.lane).head?.map (·.1)).getD 0
      | .atom _ _ _ va .. => va
      | .packet _ _ ws .. => bits (nth 0 ws 0).toNat 71 16
      | _ => 0
    | none => 0
  | _ => 0

/-- Every gather entry of the context. -/
def Queues.allGathers (q : Queues) : List GEnt := q.gdq ++ (q.gKept.map fun x => x.2) ++ q.gDropped

/-- The flag address of a packet's entry, or another (R388). -/
def Queues.flagVa (q : Queues) (id other : Nat) : Nat :=
  match q.stq.find? fun e => e.id == id with
  | some ⟨_, _, _, _, .packet _ _ ws _ _, _⟩ => bits (nth 0 ws 1).toNat 63 8
  | _ => other
/-- What an answer does to the operation of the context in focus that it belongs to. -/
def State.deliverOne (s : State) (pk : Packet) (code : Nat) (data : List Byte) : State :=
  let n := pk.id / 16
  let va := s.ctx.q.failedVa (pk.id % 16) n
  match pk.id % 16 with
  | 0 => s.loadBack n code pk.faddr data
  | 1 =>
    let s' := s.modQ fun q => q.laneBack (n / 32) (n % 32) data code pk.faddr
    match s'.ctx.q.allGathers.find? (fun e => e.id == n / 32 && e.whole) with
    | some e => s'.post s'.focus s'.sub (.gatherEntryWhole e.num)
    | none => s'
  | 2 => s.fiBack (n / 2) code { pk with data := data }
  | 3 => s.storeBack (n / 32) (n % 32) code va data
  | 4 => s.waitfBack n pk.tag code data
  | 5 => s.flagwBack n code
  | 6 => s.copyBack n code data (s.readBad { pk with data := data })
  | 7 => s.collReadBack (n / 32) code data
  | 8 => s.collBack (n / 32) code pk.faddr
  | 13 => s.storeBack (n / 32) (n % 32) code (if code = 0x0404 then s.ctx.q.flagVa (n / 32) va else va) data
  | _ => s
/-- The first note that a STORE of a packet's transfer is on its way elsewhere goes, or becomes the AUX that the STORE failed with. -/
def noteMoved (pk : Packet) (code : Nat) : List (Nat × Nat × Nat) → List (Nat × Nat × Nat)
  | [] => []
  | e :: t => if ofTransfer pk e && e.2.2 == 0 then (if code = 0 then t else (e.1, e.2.1, codeAux code) :: t) else e :: noteMoved pk code t
/-- A redirected STORE of a transfer has ended: the station that its transfer is for learns of it (R172, R388; log entry 80). -/
def State.movedDone (s : State) (pk : Packet) (code : Nat) : State :=
  if inTransfer pk && decide (0 < pk.fwd) && (pk.typ == 3 || pk.typ == 10) then
    match s.dies.find? fun e => e.2.xfers.any fun x => ofTransfer pk x && x.2.2 == 0 with
    | some e => s.modDieAt (e.1 / 16) (e.1 % 16) fun d => { d with xfers := noteMoved pk code d.xfers }
    | none => s
  else s
/-- The answer of a request, or its failure at the source, reaches what it belongs to; loads that waited may go out. -/
def State.deliver (s : State) (pk : Packet) (code : Nat) (data : List Byte) : State :=
  let s := s.movedDone pk code
  if pk.id % 16 = 10 then s.hostBack (pk.id / 16) code pk data
  else if pk.id % 16 = 9 then s.collOutBack (pk.id / 32) code pk.size (pk.id / 16 % 2 == 1)
  else s.onCtx { packetSource pk with core := if pk.id % 16 = 7 ∨ pk.id % 16 = 8 then pk.id / 16 % 32 else (packetSource pk).core } pk.sctx fun s => (s.deliverOne pk code data).sendLoads

/-! ### Redirected requests (R378) -/

def State.setSrc (s : State) (l : Loc) (agent p d : Nat) (r : Source) : State :=
  s.modDieAt l.pkg l.die fun x => { x with src := tset x.src (srcKey agent p d) r }
/-- SEQ `a` comes before `b` (R180). -/
def seqBefore (a b : Nat) : Bool := decide (1 ≤ (b + 2 ^ 16 - a) % 2 ^ 16) && decide ((b + 2 ^ 16 - a) % 2 ^ 16 < 2 ^ 15)
/-- A redirected request among those of its station, in egress order. -/
def addRedirected (x : Nat × Packet) : List (Nat × Packet) → List (Nat × Packet)
  | [] => [x]
  | y :: t => if seqBefore x.2.seq y.2.seq then x :: y :: t else y :: addRedirected x t
/-- Redirected requests go to their new place in their egress order: none before an earlier request to its page is answered, and none while 1024 are
unanswered at the new station (R180). -/
def State.sendRedirected (s : State) (l : Loc) (agent p d : Nat) : Nat → State
  | 0 => s
  | n + 1 =>
    let r := s.source l agent p d
    match r.redir with
    | [] => s
    | (old, x) :: t =>
      if (r.sent.any fun e => bits e.1.dest 55 16 == bits old 55 16 && seqBefore e.1.seq x.seq) ||
        decide (1024 ≤ (s.source l agent (paPkg x.dest) (paStn x.dest)).sent.length) then s
      else ((s.setSrc l agent p d { r with redir := t }).request l x).sendRedirected l agent p d n

/-- Redirected requests of an agent go on, to whichever station they were sent. -/
def State.pumpAgent (s : State) (l : Loc) (agent : Nat) : State :=
  ((s.dieAt l.pkg l.die).src.filter fun r => r.1 / 256 == agent && !r.2.redir.isEmpty).foldl
    (fun s r => s.sendRedirected l agent (r.1 / 16 % 16) (r.1 % 16) 1024) s

/-! ### The answers (R176) -/

/-- An answer is taken once: the request that it answers is dropped, and its data or error is delivered. -/
def State.takeAnswer (s : State) (pk : Packet) : State :=
  match s.answered (packetSource pk) pk with
  | (s, true) =>
    (s.pumpAgent (packetSource pk) pk.agent).deliver pk (answerCode pk.aux) pk.data
  | (s, false) => s
/-- LOADRESP (R176, R361). -/
def execLoadresp (pk : Packet) (s : State) : Out := .next (s.takeAnswer pk)
/-- ATOMRESP (R176). -/
def execAtomresp (pk : Packet) (s : State) : Out := .next (s.takeAnswer pk)
/-- ACK (R176, R361). -/
def execAck (pk : Packet) (s : State) : Out := .next (s.takeAnswer pk)
/-- GATHER_ENTRY_WHOLE (R299): tlg operations of whole entries complete. -/
def execGatherEntryWhole (num : Nat) (s : State) : Out :=
  .next (if s.ctx.q.allGathers.any (fun e => e.num == num && e.whole) then
    s.modQ fun q => { q.complete 1 num with gDropped := q.gDropped.filter fun e => !(e.num == num && e.whole) } else s)

/-! ### Refusals and retries (R181, R385) -/

/-- The request that an event brings to a station. -/
def Instr.request? (i : Instr) : Option Packet :=
  match i with
  | .loadreq pk _ | .store pk _ | .storelast pk _ | .atomic pk _ | .collPacket pk _ => some pk
  | _ => none
/-- A slot of the source on its way to the station. -/
def inFlightOf (l : Loc) (agent p d : Nat) (t : Todo) : Bool :=
  match Instr.request? t.i with
  | some pk => pk.agent == agent && pk.spkg == l.pkg && pk.sstn == l.die && paPkg pk.dest == p && paStn pk.dest == d
  | none => false
/-- The first request of a record that backs off, and every later one, are sent again in SEQ order (R181); slots of them still on a ring are
superseded. To a destination that UNRCH names meanwhile none is sent, and they fail with 0x0402 (R386). -/
def State.resend (s : State) (l : Loc) (agent p d : Nat) : State :=
  let r := s.source l agent p d
  let again := r.sent.dropWhile fun e => e.2.2 == 0
  let s := s.setSrc l agent p d { r with sent := r.sent.map fun e => (e.1, e.2.1, 0) }
  let s := { s with todo := s.todo.filter fun t => !(inFlightOf l agent p d t && again.any fun e => match Instr.request? t.i with | some pk => pk.seq == e.1.seq | none => false) }
  match again with
  | [] => s
  | e :: _ =>
    if (s.dieAt l.pkg l.die).unreachable l.pkg p d then
      let s := s.setSrc l agent p d { r with seq := e.1.seq, sent := r.sent.takeWhile fun e => e.2.2 == 0 }
      (again.foldl (fun s e => s.deliver e.1 0x0402 []) s).pumpAgent l agent
    else again.foldl (fun s e => s.depart e.1) s

/-- The request as it was sent. -/
def Source.find (r : Source) (pk : Packet) : Option (Packet × Nat × Nat) := r.sent.find? fun e => sameRequest e.1 pk

/-- The later packets of a failed packet's transfer, its STORELAST included (R385). -/
def laterOfTransfer (pk : Packet) : List (Packet × Nat × Nat) → List Packet
  | [] => []
  | e :: t =>
    if inTransfer e.1 && e.1.sctx == pk.sctx && e.1.tag == pk.tag && e.1.typ != 1 then
      e.1 :: (if e.1.typ = 4 then [] else laterOfTransfer pk t)
    else laterOfTransfer pk t
/-- The requests that follow one in a record. -/
def Source.after (r : Source) (pk : Packet) : List (Packet × Nat × Nat) := (r.sent.dropWhile fun e => e.1.seq != pk.seq).drop 1
/-- A request leaves a record unperformed, with the packets withdrawn beside it, and the gap in SEQ is closed (R385). -/
def Source.withdraw (r : Source) (gone : List Packet) : Source :=
  let low := match gone with | g :: _ => g.seq | [] => 0
  let isGone (x : Packet) : Bool := gone.any fun g => g.seq == x.seq
  let kept := r.sent.filter fun e => !isGone e.1
  let before := kept.filter fun e => decide ((e.1.seq + 2 ^ 16 - low) % 2 ^ 16 ≥ 2 ^ 15)
  let later := kept.filter fun e => decide ((e.1.seq + 2 ^ 16 - low) % 2 ^ 16 < 2 ^ 15)
  { r with
    seq := (r.seq + 2 ^ 16 - gone.length) % 2 ^ 16
    sent := before ++ later.zipIdx.map fun e => ({ e.1.1 with seq := (low + e.2) % 2 ^ 16 }, e.1.2.1, 1) }

/-- The packets of a failed transfer that its context has not sent yet are withdrawn as they come, up to its STORELAST (R385). -/
def State.cutTransfer (s : State) (pk : Packet) : State :=
  if pk.id % 16 = 13 then s.modCtxAt (packetSource pk) pk.sctx fun c => c.onQ fun q => { q with cut := q.cut ++ [(dieKey (paPkg pk.dest) (paStn pk.dest), pk.tag)] }
  else s
/-- NACK (R181, R385): the source backs off, and later sends again; the eighth fails the request with 0x0401. -/
def execNack (pk : Packet) (s : State) : Out :=
  .next (
    let l := packetSource pk
    let p := paPkg pk.dest
    let d := paStn pk.dest
    let r := s.source l pk.agent p d
    match r.find pk with
    | none => s
    | some e =>
      if e.2.1 + 1 < 8 then
        let a := e.2.1 + 1
        (s.setSrc l pk.agent p d { r with sent := r.sent.map fun x => if x.1.seq = e.1.seq then (x.1, a, 64 * 2 ^ (a - 1)) else x }).post
          l 0 (.retryBackoffExpiry pk.agent p d)
      else
        let gone := e.1 :: (if inTransfer e.1 && e.1.typ == 3 then laterOfTransfer e.1 (r.after e.1) else [])
        let s := s.setSrc l pk.agent p d (r.withdraw gone)
        let s := { s with todo := s.todo.filter fun t =>
          !(inFlightOf l pk.agent p d t && match Instr.request? t.i with | some q => seqBefore e.1.seq q.seq | none => false) }
        let s := if inTransfer e.1 ∧ e.1.typ = 3 ∧ !gone.any (·.typ == 4) then s.cutTransfer e.1 else s
        let s := gone.foldl (fun s g => s.deliver g 0x0401 []) s
        (s.resend l pk.agent p d).pumpAgent l pk.agent)
/-- RETRY_BACKOFF_EXPIRY (R181). -/
def execRetryBackoffExpiry (agent tp td : Nat) (s : State) : Out :=
  .next (if (s.source s.focus agent tp td).sent.any fun e => decide (0 < e.2.2) then s.resend s.focus agent tp td else s)
/-- A request of the record has had no answer for 2^20 cycles of its core; a unit of a die, which has no cycles of its own, waits no stated time
(DESIGN CHOICE, log entry 25). -/
def State.overdue (s : State) (agent : Nat) (r : Source) : Bool :=
  r.sent.any fun e => decide (40 ≤ agent) || decide (e.1.born + 2 ^ 20 ≤ (s.coreAt (packetSource e.1)).cycle)
/-- REQUEST_TIMEOUT (R386): once a request has had no answer for 2^20 cycles, every unanswered request to the station fails with 0x0402, and UNRCH
names the station. -/
def execRequestTimeout (agent tp td : Nat) (s : State) : Out :=
  .next (
    let r := s.source s.focus agent tp td
    if r.sent.isEmpty then s
    else if !s.overdue agent r then s.post s.focus 0 (.requestTimeout agent tp td)
    else
      let l := s.focus
      let bit_ := if tp = l.pkg then td else 16 + tp
      let s := s.modDie fun x => { x with regs := { x.regs with unrch := x.regs.unrch ||| (1 <<< bit_) } }
      let s := s.setSrc l agent tp td { r with sent := [] }
      let s := { s with todo := s.todo.filter fun t => !inFlightOf l agent tp td t }
      (r.sent.foldl (fun s e => s.deliver e.1 0x0402 []) s).pumpAgent l agent)

/-! ### Forwards at the source (R378) -/

/-- The core keeps a page's forward in its TLB of 512 entries, which gives up plain translations for it first (R18, R152; log entry 56). An access that
no leaf entry translated has nothing to keep it in. -/
def State.keepForward (s : State) (pk : Packet) (new kind : Nat) : State :=
  let l := agentTlb pk
  let e : TlbEnt := ⟨pk.via.1, pk.via.2.1, 16, pk.via.2.2 % 2 ^ 64, some (new, kind)⟩
  if e.pte = 0 ∨ !hasTlb l then s
  else s.modCoreAt l fun k =>
    let rest := k.tlb.filter fun x => !(x.root == e.root && x.vpn == e.vpn && x.sz == 16 && x.fwd.isSome)
    let plain := rest.filter fun x => x.fwd.isNone
    let kept := e :: rest.filter fun x => x.fwd.isSome
    { k with tlb := (kept ++ plain.drop (kept.length + plain.length - 512)).take 512 }
/-- REDIRECT (R378): KIND is checked against FWD, the core keeps the forward, and the request goes to its new home in egress order. -/
def execRedirect (pk : Packet) (s : State) : Out :=
  .next (
    let l := packetSource pk
    let p := paPkg pk.dest
    let d := paStn pk.dest
    let r := s.source l pk.agent p d
    match r.find pk with
    | none => s
    | some e =>
      let w := leNat pk.data
      let kind := bits w 1 0
      let fwd := bits e.1.via.2.2 10 9
      let r : Source := { r with
        sent := r.sent.filter (· != e)
        moved := (bits pk.dest 55 16, bits w 55 16) :: r.moved.filter fun m => r.sent.any fun x => bits x.1.dest 55 16 == m.1 }
      if fwd ≠ 0 ∧ fwd ≠ kind then ((s.setSrc l pk.agent p d r).pumpAgent l pk.agent).deliver e.1 0x0301 []
      else if 4 ≤ e.1.fwd then ((s.setSrc l pk.agent p d r).pumpAgent l pk.agent).deliver e.1 0x0307 []
      else
        let x : Packet := { e.1 with dest := bits w 55 16 * 2 ^ 16 + pk.dest % 2 ^ 16, fwd := e.1.fwd + 1 }
        let s := (s.keepForward e.1 (bits w 55 16) kind).setSrc l pk.agent p d { r with redir := addRedirected (pk.dest, x) r.redir }
        s.pumpAgent l pk.agent)

end Sys2Proof.Machine
end

