-- ==== Sys2Proof/Machine/Commands.lean ====
section
/-! DEFINITION. Engine work after release: copy commands, circular-buffer settings, FLAGW, WAITF, collectives (R138, R140, R183 to R186, R304 to R306, R313 to R315). -/

namespace Sys2Proof.Machine

/-! ### An engine's access to global memory -/

/-- Where an access by an engine ends: done with a value, failed with a code and the failing address (R356), or it must wait for a held page (R377). -/
inductive Eng (α : Type) where
  | done (x : α)
  | failed (code va : Nat)
  | wait

/-- The packet of an engine's access. -/
def engPacket (l : Loc) (c agent typ pa n : Nat) (enc ichk : Bool) : Packet :=
  { blankPacket with typ := typ, size := n, dest := pa, spkg := l.pkg, sstn := l.die, agent := agent, sctx := c, enc := enc, ichk := ichk }

/-- An engine reads global bytes by virtual address (R146, R372). -/
def State.engRead (s : State) (l : Loc) (c agent root va n : Nat) : State × Eng (List Byte) :=
  match s.translateNow l root va 0 with
  | (s, .fail code) => (s, .failed code va)
  | (s, .miss) => (s, .wait)
  | (s, .ok pa pte) =>
    match s.reach l (leafFwd pte) pa 5 with
    | .wait => (s, .wait)
    | .lost code e => (s.logReach l c agent e, .failed code va)
    | .at_ pa =>
      let s := s.settleLines pa n
      let pk := engPacket l c agent 1 pa n (pteEnc pte) (pteIchk pte)
      match s.homeRead pk n with
      | .ok (s, b) => (s, .done b)
      | .error a => (s.logAux pk a, .failed (auxCode a) va)

/-- An engine writes bytes at a translated place, which `va` names; the host completes a write to its memory later (R190). -/
def State.engPut (s : State) (l : Loc) (c agent fwd va pa : Nat) (enc : Bool) (bs : List Byte) : State × Eng Unit :=
  match s.reach l fwd pa 5 with
  | .wait => (s, .wait)
  | .lost code e => (s.logReach l c agent e, .failed code va)
  | .at_ pa =>
    let s := s.settleLines pa bs.length
    let pk := engPacket l c agent 3 pa bs.length enc true
    match s.homeWrite pk false bs with
    | .ok s => (if s.regionKind pa = some 2 then s.postHost { pk with typ := 0 } else s, .done ())
    | .error a => (s.logAux pk a, .failed (auxCode a) va)
/-- An engine writes global bytes by virtual address. -/
def State.engWrite (s : State) (l : Loc) (c agent root va : Nat) (bs : List Byte) : State × Eng Unit :=
  match s.translateNow l root va 1 with
  | (s, .fail code) => (s, .failed code va)
  | (s, .miss) => (s, .wait)
  | (s, .ok pa pte) => s.engPut l c agent (leafFwd pte) va pa (pteEnc pte) bs

/-! ### Copy commands (R304 to R306) -/

/-- The page-table root of the context in focus. -/
def State.root (s : State) : Nat := (s.ctx.bind.map (·.root)).getD 0

/-- No bundle is under way on the core, and none occupied the bank of a line in the cycle just passed: engines come behind the bundle of a cycle
(R137). -/
def State.bankIdle (s : State) (a : Nat) : Bool :=
  !((List.range 4).any fun c => !(s.core.ctx c).latch.isEmpty) && !s.core.busy.contains (bankOf a)
/-- No slot access to a row of accumulator memory and no landing in it falls into this cycle or the one just passed (R141). -/
def State.rowIdle (s : State) (a : Nat) : Bool :=
  !((List.range 4).any fun c => !(s.core.ctx c).latch.isEmpty) && !s.core.busy.contains (32 + a / 128) && !s.core.landed.contains (32 + a / 128) &&
  !(s.core.arr.exits.any fun e => decide (e.row = some (a / 128)) && decide (e.due ≤ s.cyc))
/-- The line of a local space is free for an engine. -/
def State.lineIdle (s : State) (sp a : Nat) : Bool := if sp = 1 then s.bankIdle a else s.rowIdle a
/-- Bytes of accumulator memory as the copy engine reads them: undefined before a landing that has been issued for their row (R284, R345). -/
def State.accCopied (s : State) (a n : Nat) : List Byte :=
  if s.core.arr.rowPending (a / 128) then (rangeFrom a n).map fun x => BitVec.ofNat 8 (s.free (2 ^ 23 + x) 8) else Memory.read s.core.accm a n

/-- Data leaves the device: for second tier, host memory or another package (R363). -/
def State.egress (s : State) (pa : Nat) : Bool := s.regionKind pa == some 1 || s.regionKind pa == some 2 || paPkg pa != s.focus.pkg
/-- A command's request for its line in global memory, by packet from the copy engine (R182, R304); none while it must wait. A line that fails its check
does not leave the device, and is logged (R363, R381). -/
def State.copyAsk (s : State) (k : Cmd) (va need io : Nat) (pk : Packet) : Option State :=
  match s.translateNow s.focus k.root va need with
  | (_, .miss) => none
  | (s, .fail c) => some (s.copyMoved k.num c (va % 2 ^ 56))
  | (s, .ok pa pte) =>
    let ag := 20 + s.focus.core
    if !s.canSend s.focus ag pa then none
    else if need = 1 ∧ k.bad ∧ s.egress pa then
      some ((s.logError s.focus.pkg s.focus.die 0x0304 s.focus.pkg s.focus.die s.sub ag pa 0 0).copyMoved k.num 0x0304 (va % 2 ^ 56))
    else
      let s := s.modCmd k.num fun c => { c with io := io }
      some (s.request s.focus (underLeaf { pk with dest := pa, agent := ag, sctx := s.sub, id := idCopy k.num } k.root va pte))
/-- A command reads a piece of its line. -/
def State.copyGet (s : State) (k : Cmd) (x : Nat × Nat × Nat) : Option State :=
  let here (b : List Byte) : State := (s.readWords s.sub (k.ssp + 1) x.1 x.2.2 true).modCmd k.num fun c => c.took (s.cb k.cb) b
  if k.ssp = 0 then s.copyAsk k x.1 0 1 { blankPacket with typ := 1, size := x.2.2 }
  else if !s.lineIdle k.ssp x.1 then none
  else if k.ssp = 1 then some (here (if s.preloading x.1 then s.freeBytes x.1 x.2.2 else Memory.read s.core.spad x.1 x.2.2))
  else some (here (s.accCopied x.1 x.2.2))
/-- A CPYC has filled a slot: WP advances, and is undefined with two producers (R140). -/
def State.slotFilled (s : State) (k : Cmd) : State :=
  let s := s.modCb k.cb fun b => { b with wp := if b.prog then s.free (2 ^ 51 + k.cb) 32 else (b.wp + 1) % 2 ^ 32, eng := true }
  let s := s.modCmd k.num fun c => { c with slots := k.slots + 1, pos := 0, off := 0, io := 0, buf := [], run := 0, bad := false, dirty := [] }
  if k.slots + 1 = ctlLen k.ctl then s.copyMoved k.num 0 0 else s
/-- A command has written its line in a local space. -/
def State.copyPutDone (s : State) (k : Cmd) : State :=
  if k.kind = 3 ∧ (k.advance (s.cb k.cb)).finished (s.cb k.cb) then s.slotFilled k else s.copyNextLine k
/-- A command that has read its whole line writes it: in a local memory in one cycle, in global memory run by run. -/
def State.copyPut (s : State) (k : Cmd) : Option State :=
  let runs := s.lineRuns k
  match runs[k.run]? with
  | none => none
  | some (a, bs) =>
    if k.dsp = 0 then s.copyAsk k a 1 3 { blankPacket with typ := 3, size := bs.length, data := bs }
    else if !s.lineIdle k.dsp a then none
    else
      let t := runs.foldl (fun s r => s.localPut (some (s.sub, k.num)) k.dsp r.1 r.2) s
      some ((if k.bad ∧ k.dsp = 1 then t.modCore fun c => runs.foldl (fun c r => c.markSectors r.1 r.2.length) c else t).copyPutDone k)
/-- The next act of a started command: none while its request is out, or it must wait. -/
def State.copyLine (s : State) (k : Cmd) : Option State :=
  match k.io with
  | 0 => (k.nextPiece (s.cb k.cb)).bind (s.copyGet k)
  | 2 => s.copyPut k
  | _ => none

/-- The first command that has not started, if it is released and nothing holds it back (R161, R162, R304). -/
def Ctx.copyNext (c : Ctx) : Option Cmd :=
  match c.q.cmds.find? fun k => decide (k.stage ≤ 1) with
  | some k =>
    let waits := decide (k.kind = 3) && c.q.cmds.any fun b => decide (b.kind = 4) && decide (b.cb = k.cb) && decide (b.num < k.num)
    if k.stage = 1 ∧ !c.heldBack k.rel k.rel k.ser ∧ !waits then some k else none
  | none => none

/-- A CPYC's local source range stays below its limit for the CBSET in effect (R306). -/
def cpycOk (k : Cmd) (b : CBuf) : Bool :=
  let n := ctlLen k.ctl
  let lim := match ctlSsp k.ctl with | 1 => 2 ^ 22 | 2 => 2 ^ 20 | _ => 2 ^ 64
  decide (ctlSsp k.ctl = 0) || decide (n = 0) ||
    decide (nth 0 k.ops 0 + (n - 1) * nth 0 k.ops 1 + (b.ssize - 1) * nth 0 k.ops 2 + 512 ≤ lim)

/-- What the start of a command does. -/
def State.copyStart (s : State) (k : Cmd) : State :=
  if k.kind = 3 ∧ !cpycOk k (s.cb k.cb) then s.copyMoved k.num 0x020D (nth 0 k.ops 0)
  else if k.kind ≠ 4 ∧ k.finished (s.cb k.cb) then s.copyMoved k.num 0 0
  else s.modCmd k.num fun c => { c with stage := 2 }
/-- The next act of the copy engine for CPY, CPYT and CPYM, and the start of the next command of any kind. -/
def State.copyGo (s : State) : Option State :=
  match s.ctx.copyNext with
  | some k => some (s.copyStart k)
  | none => (s.ctx.q.cmds.filter fun k => decide (k.stage = 2) && decide (k.kind ≤ 2)).findSome? s.copyLine
/-- COPY_COMMAND_START (R304): the next released command starts; a started one moves its next line. -/
def execCopyCommandStart (s : State) : Out := .next (s.copyGo.getD s)

/-- An earlier CPYC is still filling slots of the same handle, which are filled in WP order (R140). -/
def Ctx.fillsBefore (c : Ctx) (k : Cmd) : Bool :=
  c.q.cmds.any fun b => decide (b.kind = 3) && decide (b.cb = k.cb) && decide (b.num < k.num) && decide (b.stage ≤ 2)
/-- The next act of a CPYC: it waits for the CPYCs before it on its handle, and for a free slot before the first line of one (R140, R306). -/
def State.fillGo (s : State) (num : Nat) : Option State :=
  match s.ctx.q.cmds.find? fun k => k.num == num with
  | some k =>
    if k.kind ≠ 3 ∨ k.stage ≠ 2 ∨ (k.begun = false ∧ (s.cb k.cb).free ≤ 0) ∨ s.ctx.fillsBefore k then none else s.copyLine k
  | none => none
/-- CPYC_SLOT_FILL (R306): a slot is filled line by line, and WP then advances. -/
def execCpycSlotFill (num : Nat) (s : State) : Out := .next ((s.fillGo num).getD s)

/-- A CBSET may take effect: released, with every earlier copy command on the handle completed (R138). -/
def Ctx.cbsetReady (c : Ctx) (k : Cmd) : Bool :=
  decide (k.kind = 4) && decide (1 ≤ k.stage) && decide (k.stage ≤ 2) && !c.heldBack k.rel k.rel k.ser &&
  !(c.q.cmds.any fun b => decide (b.num < k.num) && decide (b.cb = k.cb) && decide (3 ≤ b.kind))
/-- CBSET_TAKES_EFFECT (R138, R140): the handle is set, its pointers are 0, and recorded RPs of the handle are cancelled. -/
def execCbsetTakesEffect (num : Nat) (s : State) : Out :=
  .next (
    match s.ctx.q.cmds.find? fun k => k.num == num with
    | none => s
    | some k =>
      if !s.ctx.cbsetReady k then s
      else
        let s := s.modCb k.cb fun b =>
          ⟨nth 0 k.ops 0, nth 0 k.ops 1, nth 0 k.ops 2, 0, 0, 0, 0, b.pendSet - 1, false, false⟩
        let s := s.modPipe fun p => { p with
          cks := p.cks.map fun c => { c with rps := tdel c.rps k.cb }
          undo := p.undo.filter fun u => decide (u.reg ≠ .cbrp k.cb) }
        s.modQ fun q => ({ q with cmds := q.cmds.filter fun c => c.num != num } : Queues).complete 0 num)

/-- COPY_COMPLETE (R166, R356): a command that has moved its data completes, failed or not. -/
def execCopyComplete (num : Nat) (s : State) : Out :=
  .next (
    match s.ctx.q.cmds.find? fun k => k.num == num with
    | none => s
    | some k =>
      if k.stage ≠ 3 then s
      else s.modQ fun q =>
        let q := ({ q with cmds := q.cmds.filter fun c => c.num != num } : Queues).complete 0 num
        if k.err = 0 then q else q.defer ⟨k.ser, 0, num, k.err, k.faddr⟩)

/-! ### FLAGW (R315, R388) -/

/-- A released FLAGW may write its flag: covered operations have completed and what was released before it is performed. -/
def Ctx.flagwReady (c : Ctx) (f : FlagW) : Bool :=
  f.released && !f.sent && f.cover.all (fun e => decide (e.2 ≤ c.q.doneUpTo e.1)) && c.storesDone f.id f.scope && !c.heldBack f.id f.rel f.id
/-- The failed operation that a FLAGW covers, first issued first, whether it has been reported or not (R388). -/
def Queues.coveredFailure (q : Queues) (f : FlagW) : Option Deferred :=
  firstOf (q.failed.filter fun d => f.cover.any fun e => e.1 == d.ctr && decide (d.num ≤ e.2))
/-- FLAGW_FLAG_WRITE (R315): the flag store leaves; a covered failure gives up the flag instead (R388). -/
def execFlagwFlagWrite (s : State) : Out :=
  .next (
    match s.ctx.q.flagws.find? s.ctx.flagwReady with
    | none => s
    | some f =>
      let drop (q : Queues) : Queues := { q with flagws := q.flagws.filter fun x => x.id != f.id }
      match s.ctx.q.coveredFailure f with
      | some d => s.modQ fun q => (drop q).defer { d with ctr := 5, num := 0 }
      | none =>
        match s.translateNow s.focus s.root f.va 1 with
        | (s, .ok pa pte) =>
          if s.canSend s.focus s.focus.core pa then
            let pk := underLeaf { blankPacket with
              typ := 3, size := 8, dest := pa, agent := s.focus.core, sctx := s.sub, id := idFlagw f.id, data := leBytes 8 f.val.toNat } s.root f.va pte
            (s.modQ fun q => { q with flagws := q.flagws.map fun x => if x.id = f.id then { x with sent := true } else x }).request s.focus pk
          else s
        | (s, .fail code) => s.modQ fun q => (drop q).defer ⟨f.id, 5, 0, code, f.va⟩
        | (s, .miss) => s)

/-! ### WAITF (R205, R314) -/

/-- The next reload of a WAITF is due. -/
def WaitF.reloadDue (w : WaitF) (now : Nat) : Bool := w.result.isNone && !w.final && decide (w.last + 256 ≤ now)
/-- WAITF_RELOAD (R205): a load that is due goes out, every 256 cycles at the latest. -/
def execWaitfReload (s : State) : Out :=
  .next (match s.ctx.pipe.waitf with
    | some w =>
      if w.reloadDue s.cyc then (s.modPipe fun p => { p with waitf := some { w with last := s.cyc, due := true } }).waitfSend
      else s.waitfSend
    | none => s)
/-- A load of a WAITF is due and can go out. -/
def State.waitfDue (s : State) : Bool :=
  match s.ctx.pipe.waitf with
  | some w => w.reloadDue s.cyc || (w.due && match s.waitfSend.ctx.pipe.waitf with | some v => !v.due | none => false)
  | none => false
/-- CYC has reached the deadline, and the last load is not out yet. -/
def WaitF.deadlineDue (w : WaitF) (now : Nat) : Bool := w.result.isNone && !w.final && reached now w.deadline
/-- WAITF_DEADLINE (R205): the flag is loaded once more. -/
def execWaitfDeadline (s : State) : Out :=
  .next (match s.ctx.pipe.waitf with
    | some w => if w.deadlineDue s.cyc then
        (s.modPipe fun p => { p with waitf := some { w with last := s.cyc, final := true, due := true } }).waitfSend else s
    | none => s)

/-! ### The collective engine of a member (R183, R185) -/

/-- An engine reads any number of bytes by virtual address, in lines of 128. -/
def State.engLines (s : State) (l : Loc) (c agent root : Nat) : Nat → Nat → Nat → State × Eng (List Byte)
  | 0, _, _ => (s, .done [])
  | k + 1, va, n =>
    if n = 0 then (s, .done [])
    else
      let m := min n (128 - va % 128)
      match s.engRead l c agent root va m with
      | (s, .done b) => match s.engLines l c agent root k (va + m) (n - m) with
        | (s, .done r) => (s, .done (b ++ r))
        | r => r
      | r => r

/-- A released COLL may start. -/
def Ctx.collReady (c : Ctx) (k : CollOp) : Bool := k.released && !k.started && !c.heldBack k.rel k.rel k.ser
/-- The member's engine reads bytes of its block or source. -/
def State.collRead (s : State) (k : CollOp) (va n : Nat) : Option State :=
  match s.translateNow s.focus k.root va 0 with
  | (_, .miss) => none
  | (s, .fail code) => some (s.modQ fun q => q.collFail k.num code va)
  | (s, .ok pa pte) =>
    if !s.canSend s.focus 40 pa then none
    else
      let pk := underLeaf { blankPacket with typ := 1, size := n, dest := pa, agent := 40, sctx := s.sub, id := idCollRead k.num s.focus.core } k.root va pte
      let s := s.modQ fun q => { q with colls := q.colls.map fun x =>
        if x.num = k.num then { x with started := true, io := true } else x }
      some (s.request s.focus pk)
/-- The member's engine sends the next packet of the contribution: at most 128 bytes, with instance, member and first element in FVAL. -/
def State.collPart (s : State) (k : CollOp) : Option State :=
  match s.translateNow s.focus k.root (blkGroup k.blk) 1 with
  | (_, .miss) => none
  | (s, .fail code) => some (s.modQ fun q => q.collFail k.num code (blkGroup k.blk))
  | (s, .ok pa pte) =>
    if !s.canSend s.focus 40 pa then none
    else
      let b := k.buf.take 128
      let pk := underLeaf { blankPacket with
        typ := 7, size := b.length, dest := pa, agent := 40, sctx := s.sub, aux := blkOp k.blk, id := idColl k.num s.focus.core, faddr := blkGroup k.blk
        fval := blkInst k.blk + blkIdx k.blk * 2 ^ 16 + k.first * 2 ^ 32, data := b } k.root (blkGroup k.blk) pte
      let s := s.modQ fun q => { q with colls := q.colls.map fun x => if x.num = k.num then
        { x with out := x.out + 1, buf := x.buf.drop 128, first := x.first + b.length / collSize (blkFmt k.blk) } else x }
      some (s.request s.focus pk)
/-- The next act of the engine for an operation: it reads the block, then SRC line by line, and sends what it has read. -/
def State.collNext (s : State) (k : CollOp) : Option State :=
  if k.err ≠ 0 ∨ k.io then none
  else if !k.started then (if s.ctx.collReady k then s.collRead k k.va 64 else none)
  else
    let n := blkBytes k.blk
    if 128 ≤ k.buf.length ∨ (k.off = n ∧ k.buf ≠ []) then s.collPart k
    else if k.off < n then
      let va := (blkSrc k.blk + k.off) % 2 ^ 56
      s.collRead k va (min (128 - va % 128) (n - k.off))
    else none
/-- COLL_ENGINE_START (R183): an operation starts, or goes on. -/
def execCollEngineStart (num : Nat) (s : State) : Out :=
  .next (match s.ctx.q.colls.find? fun k => k.num == num with
    | some k => (s.collNext k).getD s
    | none => s)

end Sys2Proof.Machine
end

