-- ==== Sys2Proof/Machine/Cell.lean ====
section
/-! DEFINITION. Cell programs and the arithmetic of one beat (R106, R107, R114 to R120, R124). -/

namespace Sys2Proof.Machine

/-! ### Microwords (R117, R119) -/

def mwOpa (w : Nat) : Nat := bits w 63 60
def mwXs (w : Nat) : Nat := bits w 59 57
def mwYs (w : Nat) : Nat := bits w 56 54
def mwOpb (w : Nat) : Nat := bits w 53 51
def mwZs (w : Nat) : Nat := bits w 50 48
def mwDst (w : Nat) : Nat := bits w 47 46
def mwEo (w : Nat) : Nat := bits w 45 43
def mwSo (w : Nat) : Nat := bits w 42 40
def mwKr (w : Nat) : Bool := bit w 39

/-- The first list of R119: the microword is valid. -/
def mwOk (w : Nat) : Bool :=
  decide (mwOpa w ≤ 9) && decide (mwOpb w ≠ 7) && decide (mwDst w ≠ 3) && decide (mwEo w ≠ 7) && decide (mwSo w ≠ 7) &&
  decide (w % 2 ^ 39 = 0) &&
  (!mwKr w || (decide (mwXs w = 0) && decide (mwYs w = 1) && [0, 1, 3, 4, 5, 6].contains (mwOpa w) && decide (mwOpb w ≤ 4)))

/-- The multiply-add microword of R120. -/
def mulAdd : Nat := 0x0042018000000000

/-- The second list of R119: the entry suits MC and the mode. -/
def mwSuits (w mc : Nat) (quad : Bool) : Bool :=
  (!quad || decide (w = mulAdd)) &&
  (!isFloat mc || (!(decide (5 ≤ mwOpa w) && decide (mwOpa w ≤ 7)) && !(decide (mwOpb w = 3) || decide (mwOpb w = 4)))) &&
  (!(mc == 14) || (decide (5 ≤ mwOpa w) && decide (mwOpa w ≤ 7) && decide (3 ≤ mwOpb w) && decide (mwOpb w ≤ 5)))

/-- Entry `e` and constant `k` of a 64-byte cell program (R116). -/
def progEntry (p e : Nat) : Nat := bits p (64 * e + 63) (64 * e)
def progConst (p k : Nat) : Nat := bits p (256 + 32 * k + 31) (256 + 32 * k)

/-- The whole program passes MCELL's checks (R119, R286). -/
def progOk (p : Nat) : Bool := ((List.range 4).all fun e => mwOk (progEntry p e)) && decide (bits p 511 320 = 0)

/-! ### Formats of a beat (R106, R114) -/

/-- The k-group of a legal combination; FP64 is legal in quad mode alone and alone there. -/
def kgroup (quad : Bool) (ma mb mc : Nat) : Option Nat :=
  let both (l : List Nat) : Bool := l.contains ma && l.contains mb
  if quad then (if ma = 7 ∧ mb = 7 ∧ mc = 7 then some 1 else none)
  else if mc = 0 then
    (if both [0] then some 2 else if both [1, 2] then some 8 else if both [3, 4, 5] then some 16 else if both [6] then some 32 else none)
  else if mc = 8 then
    (if both [10, 12] then some 16 else if both [11, 13] then some 32 else if both [8] then some 2 else none)
  else if mc = 14 ∧ both [14] then some 1 else none

/-- A segment of a feed line on its way through the array: its 16 bytes and its scale pair (R114, R118). -/
abbrev Segment := Nat × Nat × Nat

/-- Segment `r` of a line with its scale line. -/
def lineSeg (line scale r : Nat) : Segment := (lane line 128 r, lane scale 8 (2 * r), lane scale 8 (2 * r + 1))

/-- Element `j` of a segment in a format. -/
def segElem (f : Word) (c j : Nat) (g : Segment) : Ext :=
  let x := lane g.1 (elemBits c) j
  if isDX c then dxVal c x g.2.1 g.2.2 else src f c x

/-! ### The microword (R118) -/

/-- The first-stage logic on 32-bit values. -/
def bitOp (op a b : Nat) : Nat := match op with | 5 => a &&& b | 6 => a ||| b | _ => a ^^^ b
/-- An exact integer as 32 bits, to which logic on a wider one wraps it (DESIGN CHOICE, log entry 77), and 32 bits as an exact integer. -/
def extBits (x : Ext) : Nat := wrap x.toInt 32
def bitsExt (v : Nat) : Ext := ofInt (sextN v 32)

/-- The first stage, exact, with the flags it raises. -/
def opA (rm op : Nat) (x y : Ext) : Ext × Flags :=
  match op with
  | 0 => extMul x y
  | 1 => extSum rm [x, y]
  | 2 => extSum rm [x, y.negate]
  | 3 => extMinMax false x y
  | 4 => extMinMax true x y
  | 8 =>
    let (d, fl) := extSum rm [x, y.negate]
    (match d with | .fin _ m e => .fin false m e | .inf _ => .inf false | z => z, fl)
  | 9 => let (b, fl) := extRel .eq x y; (.fin false b.toNat 0, fl)
  | _ => (bitsExt (bitOp op (extBits x) (extBits y)), 0)

/-- A second-stage operator that is not keep or compare-select. -/
def opB (rm op : Nat) (u z : Ext) : Ext × Flags :=
  match op with
  | 0 => extSum rm [u, z]
  | 1 => extMinMax false u z
  | 2 => extMinMax true u z
  | 3 => (bitsExt (extBits u ||| extBits z), 0)
  | _ => (bitsExt (extBits u &&& extBits z), 0)

/-- The k-group stage on numbers: one exact sum, or the operator folded over z and the terms. -/
def groupNum (rm op : Nat) (z : Ext) (ts : List (Ext × Flags)) : Ext × Flags :=
  let fl := ts.foldl (fun a t => a ||| t.2) (0 : Flags)
  if op = 0 then
    let (v, g) := extSum rm (z :: ts.map (·.1))
    (v, fl ||| g)
  else ts.foldl (fun (a : Ext × Flags) t => let (v, g) := opB rm op a.1 t.1; (v, a.2 ||| g)) (z, fl)

/-- What one cell does in a beat: new value, flags, choice flag. -/
structure CellOut where
  val : Nat
  flags : Flags
  chose : Bool
  deriving DecidableEq, Repr, Inhabited

/-- The beat as every cell sees it: microword, FMT, formats, k-group, constants. -/
structure Beat where
  mw : Nat
  fmt : Word
  kg : Nat
  k0 : Nat
  k1 : Nat
  deriving DecidableEq, Repr, Inhabited

/-- The 32-bit value of a source that is no operand. -/
def Beat.raw (b : Beat) (acc c0 c1 : Nat) (src : Nat) : Nat :=
  match src with | 2 => acc | 3 => c0 | 4 => c1 | 5 => b.k0 | 6 => b.k1 | _ => 0

/-- A source as a number: element 0 of an operand, else the 32-bit value in MC. -/
def Beat.num (b : Beat) (ain bin : Segment) (acc c0 c1 s : Nat) : Ext :=
  match s with
  | 0 => segElem b.fmt (fmtMA b.fmt) 0 ain
  | 1 => segElem b.fmt (fmtMB b.fmt) 0 bin
  | _ => src b.fmt (fmtMC b.fmt) (b.raw acc c0 c1 s)

/-- A source as a 32-bit word, for a BOOL32 MC. -/
def Beat.word (b : Beat) (ain bin : Segment) (acc c0 c1 s : Nat) : Nat :=
  match s with
  | 0 => ain.1 % 2 ^ 32
  | 1 => bin.1 % 2 ^ 32
  | _ => b.raw acc c0 c1 s

/-- The cell's arithmetic on words (BOOL32, R120: the k-group is the 32 bit-products). -/
def Beat.boolCell (b : Beat) (ain bin : Segment) (acc c0 c1 : Nat) : Nat :=
  let w := b.word ain bin acc c0 c1
  let u := bitOp (mwOpa b.mw) (w (mwXs b.mw)) (w (mwYs b.mw))
  let z := w (mwZs b.mw)
  if mwKr b.mw then
    (if mwOpb b.mw = 3 then z ||| (decide (u ≠ 0)).toNat else z &&& (decide (u = 2 ^ 32 - 1)).toNat)
  else match mwOpb b.mw with
    | 3 => u ||| z
    | 4 => u &&& z
    | _ => u

/-- The cell's arithmetic on numbers: exact result, flags, choice. -/
def Beat.numCell (b : Beat) (ain bin : Segment) (acc c0 c1 : Nat) : Ext × Flags × Bool :=
  let rm := fmtRM b.fmt
  let n := b.num ain bin acc c0 c1
  let z := n (mwZs b.mw)
  if mwKr b.mw then
    let ts := (List.range b.kg).map fun j =>
      opA rm (mwOpa b.mw) (segElem b.fmt (fmtMA b.fmt) j ain) (segElem b.fmt (fmtMB b.fmt) j bin)
    let (v, fl) := groupNum rm (mwOpb b.mw) z ts
    (v, fl, false)
  else
    let (u, fl) := opA rm (mwOpa b.mw) (n (mwXs b.mw)) (n (mwYs b.mw))
    match mwOpb b.mw with
    | 5 => (u, fl, false)
    | 6 => let (c, g) := extRel .lt u z; (if c then u else z, fl ||| g, c)
    | o => let (v, g) := opB rm o u z; (v, fl ||| g, false)

/-- One cell: the exact result rounded or reduced into MC (R99, R118). -/
def Beat.cell (b : Beat) (ain bin : Segment) (acc c0 c1 : Nat) : CellOut :=
  if fmtMC b.fmt = 14 then ⟨b.boolCell ain bin acc c0 c1, 0, false⟩
  else
    let (v, fl, c) := b.numCell ain bin acc c0 c1
    let (r, g) := finish b.fmt (fmtMC b.fmt) v
    ⟨r, fl ||| g, c⟩

/-- An output: an operand passes whole, another value fills bytes [3:0]; the pair travels with the operand (R118). -/
def Beat.output (b : Beat) (code : Nat) (ain bin through : Segment) (acc c0 c1 new : Nat) : Segment :=
  let v := match code with
    | 0 => ain.1
    | 1 => bin.1
    | 5 => new
    | 6 => 0
    | c => b.raw acc c0 c1 c
  (v, through.2)

/-! ### The whole array -/

def word32 (t : Tab (BitVec 32)) (n : Nat) : Nat := (tget 0 t n).toNat
def setWord (t : Tab (BitVec 32)) (n v : Nat) : Tab (BitVec 32) := tset t n (BitVec.ofNat 32 v)

/-- Register `t` (0 acc, 1 c0, 2 c1) of cell `n` written. -/
def Grid.put (g : Grid) (t n v : Nat) : Grid :=
  match t with
  | 0 => { g with acc := setWord g.acc n v }
  | 1 => { g with c0 := setWord g.c0 n v }
  | _ => { g with c1 := setWord g.c1 n v }

/-- What a wave of a beat carries from cell to cell: the grid, the flags, the choice bits. -/
structure Wave where
  grid : Grid
  flags : Flags
  chose : Nat
  deriving DecidableEq, Repr, Inhabited

/-- Cells of row `i` from column `j` on: the wave and the south outputs. -/
def Beat.row (b : Beat) (i : Nat) : Nat → Segment → List Segment → Wave → Wave × List Segment
  | _, _, [], w => (w, [])
  | j, ain, bin :: rest, w =>
    let n := 32 * i + j
    let acc := word32 w.grid.acc n
    let c0 := word32 w.grid.c0 n
    let c1 := word32 w.grid.c1 n
    let o := b.cell ain bin acc c0 c1
    let w' : Wave := ⟨w.grid.put (mwDst b.mw) n o.val, w.flags ||| o.flags, if o.chose then w.chose + 2 ^ n else w.chose⟩
    let east := b.output (mwEo b.mw) ain bin ain acc c0 c1 o.val
    let south := b.output (mwSo b.mw) ain bin bin acc c0 c1 o.val
    let (w'', t) := b.row i (j + 1) east rest w'
    (w'', south :: t)

/-- Rows of the array from the north edge on: the wave and the south outputs of the last row. -/
def Beat.rows (b : Beat) (A : List Segment) : List Nat → List Segment → Wave → Wave × List Segment
  | [], bs, w => (w, bs)
  | i :: t, bs, w => let (w', bs') := b.row i 0 (nth (0, 0, 0) A i) bs w; b.rows A t bs' w'

/-- A quad-mode beat (R107, R124). -/
def quadBeat (f : Word) (A B : List Segment) (g : Grid) : Grid × Flags :=
  (List.range 256).foldl (fun (a : Grid × Flags) x =>
    let q := x / 16
    let p := x % 16
    let lo := 32 * (2 * q) + 2 * p
    let hi := 32 * (2 * q + 1) + 2 * p
    let acc := word32 a.1.acc lo + word32 a.1.acc hi * 2 ^ 32
    let (r, fl) := elFma f 7 ((nth (0, 0, 0) A (2 * q)).1 % 2 ^ 64) ((nth (0, 0, 0) B (2 * p)).1 % 2 ^ 64) acc
    ((a.1.put 0 lo (r % 2 ^ 32)).put 0 hi (r / 2 ^ 32), a.2 ||| fl)) (g, 0)

/-- Every value of one register one column east: column 0 takes the words given; the old column 31 leaves (R126, R283). -/
def shiftEast (t : Tab (BitVec 32)) (col : Nat) : Tab (BitVec 32) × Nat :=
  ((List.range 1024).map fun n =>
      (n, if n % 32 = 0 then BitVec.ofNat 32 (lane col 32 (n / 32)) else tget 0 t (n - 1)),
    ofLanes 32 ((List.range 32).map fun i => word32 t (32 * i + 31)))

/-- The threshold unit on one column (R130): RUNMAX and whether the threshold was met. DAZ does not act on what it compares (DESIGN CHOICE, log entry
76). -/
def scoutColumn (mc thr thrMc : Nat) (col : Nat) (runmax : Ext) : Ext × Bool :=
  let mode := bit thr 0
  let value := toExt thrMc false (thr / 2 ^ 32)
  (List.range 32).foldl (fun (a : Ext × Bool) l =>
    let s := toExt mc false (lane col 32 l)
    if s.isNan then a
    else if mode then
      let rm := if extCmp a.1 s = .lt then s else a.1
      let bound := (extSum 0 [rm, value.negate]).1
      (rm, a.2 || (extRel .ge s bound).1)
    else (a.1, a.2 || (extRel .ge s value).1)) (runmax, false)

end Sys2Proof.Machine
end

