-- ==== Sys2Proof/Machine/Matrix.lean ====
section
/-! DEFINITION. The M slots (R276 to R291). -/

namespace Sys2Proof.Machine

/-! ### Ownership and the feeder queue (R113, R125, R276) -/

/-- Another context owns the array, or a rollback of another holds it (R125, R367). -/
def State.arrTaken (s : State) : Bool :=
  let r := s.core.arr
  (match r.owner with | some o => o != s.sub | none => false) || (match r.rest with | some (c, _, _) => c != s.sub | none => false)

/-- The context owns the array and is not releasing it. -/
def State.arrMine (s : State) : Bool :=
  let r := s.core.arr
  decide (r.owner = some s.sub) && !r.releasing

/-- Items of the feeder queue; snap tokens are no items. -/
def Arr.count (r : Arr) : Nat := (r.items.filter fun i => match i.kind with | .snap => false | _ => true).length
/-- The queue holds 64 items. -/
def State.feederFull (s : State) : Bool := decide (64 ≤ s.core.arr.count)

/-- An item enters the feeder queue, eligible in issue cycle + 8 (R113). -/
def State.item (s : State) (k : ItemKind) : State :=
  s.modArr fun r => { r with items := r.items ++ [⟨s.ctx.pipe.ser, s.sub, s.cyc + 8, s.fmt, k⟩] }

/-- The cell program that a beat issued now runs under: the last one queued, else the one installed. -/
def Arr.issProg (r : Arr) : Nat := r.items.foldl (fun p i => match i.kind with | .cell q => q | _ => p) r.edge.prog
/-- The issue-time configuration (R276). -/
def Arr.issCfg (r : Arr) : Nat := r.items.foldl (fun p i => match i.kind with | .cfg w => w | _ => p) r.edge.cfg

/-- An M slot blocks: the array is taken, or its item finds the queue full. -/
def State.mBlocks (s : State) (item : Bool) : Bool := s.arrTaken || (item && s.arrMine && s.feederFull)

/-- An M slot other than MCLR: blocking, room in the undo log for the registers it writes, ownership (R355), then its effect. -/
def mslot (h : Hd) (item : Bool) (s : State) (f : State → State) (regs : List RegId := []) : Out :=
  slotOr h.q s (fun s => s.mBlocks item) fun s =>
    if s.undoFull regs then s.raise 0x0206 else if !s.arrMine then s.raise 0x0208 else f s

/-! ### MCLR and MREL (R278, R290) -/

/-- MCLR blocks under R125, or on a full queue. -/
def State.mclrBlocks (s : State) : Bool := s.arrTaken || s.feederFull
/-- MCLR: the array is acquired, a release under way is cancelled, ZC becomes 0. -/
def execMclr (h : Hd) (s : State) : Out :=
  slotOr h.q s State.mclrBlocks fun s =>
    if s.undoFull [.zc] then s.raise 0x0206
    else ((s.writeNow .zc (.bits 0)).modArr fun r => { r with owner := some s.sub, releasing := false }).item .clear
/-- MREL: the release begins. -/
def execMrel (h : Hd) (s : State) : Out := mslot h false s fun s => s.modArr fun r => { r with releasing := true }

/-! ### MPUSH and MPUSHZ (R279 to R282) -/

/-- The tile mask gates the slot off (R279). -/
def State.gated (s : State) (m k : BitVec 3) : Bool := decide (m ≠ 0) && !(s.rtm m.toNat).testBit (s.ifield k % 1024)

/-- The format and entry checks (R219, R279): the code of the first that fails. -/
def State.pushFault (s : State) (e : BitVec 2) : Option Nat :=
  let f := s.fmt
  let r := s.core.arr
  let quad := cfgQuad r.issCfg
  if (isDX (fmtMA f) || isDX (fmtMB f)) && !s.hasF0 then some 0x020C
  else match kgroup quad (fmtMA f) (fmtMB f) (fmtMC f) with
  | none => some 0x020C
  | some _ => if mwSuits (progEntry r.issProg e.toNat) (fmtMC f) quad then none else some 0x020A

/-- R280 for a line offset of a handle. -/
def CBuf.dxOk (b : CBuf) (L : Nat) : Bool :=
  decide (b.ssize % 2 = 0) && decide (4 ≤ b.ssize) && decide (b.ssize ≤ 18) && decide (L % b.ssize ≤ b.ssize - 3)
/-- The scale line's address (R280). -/
def CBuf.scaleAt (b : CBuf) (L : Nat) : Nat :=
  let l := L % b.ssize
  b.readLine (L - l + (b.ssize - 1 - l % 2)) + 64 * (l / 2)
/-- R280 holds for each DX operand of the beat at a line offset. -/
def State.dxPairOk (s : State) (a b : BitVec 4) (L : Nat) : Bool :=
  (!isDX (fmtMA s.fmt) || (s.cb a.toNat).dxOk L) && (!isDX (fmtMB s.fmt) || (s.cb b.toNat).dxOk L)

/-- A line's zero-map bit (R281). -/
def lineLive (m : Memory) (a : Nat) : Bool := (Memory.read m a 512).any (· != 0)

/-- What the feeder finds: it waits, a fault, or the line offset to feed with the pairs examined before it. -/
inductive Feed where
  | wait
  | fault (code : Nat)
  | pair (L : Nat) (seen : List Nat)
  deriving DecidableEq, Repr

/-- Both lines of a pair are ready (R139). -/
def State.pairReady (s : State) (a b : BitVec 4) (L : Nat) : Bool := (s.cb a.toNat).readReady L && (s.cb b.toNat).readReady L
/-- A line's live bit as the feeder finds it; undefined where a preload may run (R51). -/
def State.liveAt (s : State) (a : Nat) : Bool := if s.preloading a then decide (s.free (2 ^ 20 + a) 1 = 1) else lineLive s.core.spad a
/-- Both lines of a pair are live (R128). -/
def State.pairLive (s : State) (a b : BitVec 4) (L : Nat) : Bool := s.liveAt ((s.cb a.toNat).readLine L) && s.liveAt ((s.cb b.toNat).readLine L)

/-- The pairs of an MPUSHZ from offset `L` on, `n` + 1 of them at most (R282). -/
def State.skipDead (s : State) (a b : BitVec 4) : Nat → Nat → List Nat → Feed
  | n, L, seen =>
    if !s.pairReady a b L then .wait
    else if !s.dxPairOk a b L then .fault 0x020D
    else match n with
      | 0 => .pair L seen
      | k + 1 => if s.pairLive a b L then .pair L seen else s.skipDead a b k (L + 1) (seen ++ [L])

/-- A CBSET of one of the two handles is not in effect (R138). -/
def State.pairPending (s : State) (a b : BitVec 4) : Bool := (s.cb a.toNat).pendSet != 0 || (s.cb b.toNat).pendSet != 0

/-- What an MPUSH or MPUSHZ that is not gated finds, in the order of R279 and R282; what depends on a handle waits for its CBSET (R138). -/
def State.feed (s : State) (z : Bool) (a b : BitVec 4) (l : BitVec 3) (e : BitVec 2) : Feed :=
  match s.pushFault e with
  | some c => .fault c
  | none =>
    let L := s.ifield l
    if s.pairPending a b then .wait
    else if z then s.skipDead a b 8 (L + (s.read .zc 32)) []
    else if !s.dxPairOk a b L then .fault 0x020D
    else if s.pairReady a b L then .pair L [] else .wait

/-- An MPUSH or MPUSHZ blocks. -/
def State.pushBlocks (s : State) (z : Bool) (a b : BitVec 4) (m l k : BitVec 3) (e : BitVec 2) : Bool :=
  s.arrTaken || (s.arrMine && !s.gated m k &&
    match s.feed z a b l e with | .wait => true | .fault _ => false | .pair .. => s.feederFull)

/-- The line offsets that a feed may take: its own, or for MPUSHZ the nine from L plus the z-cursor on, by addresses alone (R136, R282). -/
def State.mayFeed (s : State) (z : Bool) (l : BitVec 3) : List Nat :=
  if z then rangeFrom (s.ifield l + s.read .zc 32) 9 else [s.ifield l]
/-- The bank groups from which a handle may be fed. -/
def CBuf.feedGroups (c : CBuf) (Ls : List Nat) : List Nat := (Ls.map fun x => bits (c.readLine x) 21 20).eraseDups
/-- The banks of one feed (R135): a half-group, or for MPUSHZ every bank of each group it may feed from, and the bank of each scale line it
may read (log entry 55). -/
def feedBanks (z : Bool) (c : CBuf) (dx : Bool) (Ls : List Nat) : List Nat :=
  ((if z then (c.feedGroups Ls).flatMap groupBanks else Ls.flatMap fun L => halfGroup (c.readLine L)) ++
    if dx then (Ls.filter c.dxOk).map fun L => bankOf (c.scaleAt L) else []).eraseDups

/-- A fed line and its scale line, read at issue. -/
def State.feedData (s : State) (c : CBuf) (dx : Bool) (L : Nat) : Nat × Nat :=
  (leNat (s.spadRead (c.readLine L) 512), if dx then leNat (s.spadRead (c.scaleAt L) 64) else 0)

/-- MPUSH and MPUSHZ. -/
def pushOp (h : Hd) (z : Bool) (a b : BitVec 4) (m l k : BitVec 3) (e : BitVec 2) (s : State) : Out :=
  slotOr h.q s (fun s => s.pushBlocks z a b m l k e) fun s =>
    if !s.arrMine then s.raise 0x0208
    else if s.gated m k then s
    else match s.feed z a b l e with
      | .wait => s
      | .fault c => s.raise c
      | .pair L _ =>
        let ca := s.cb a.toNat
        let cb := s.cb b.toNat
        let da := isDX (fmtMA s.fmt)
        let db := isDX (fmtMB s.fmt)
        let Ls := s.mayFeed z l
        match s.claim (feedBanks z ca da Ls ++ feedBanks z cb db Ls) with
        | none => s.raise 0x0201
        | some s' =>
          if (ca.feedGroups Ls).any fun g => (cb.feedGroups Ls).contains g then s.raise 0x0201
          else if z && s.undoFull [.zc] then s.raise 0x0206
          else
            let (x, sx) := s.feedData ca da L
            let (y, sy) := s.feedData cb db L
            let s' := s'.item (.beat e.toNat x y sx sy)
            if z then s'.writeNow .zc (.bits ((L - s.ifield l) % 2 ^ 32)) else s'
/-- MPUSH (R279). -/
def execMpush (h : Hd) (a b : BitVec 4) (m l k : BitVec 3) (e : BitVec 2) (s : State) : Out := pushOp h false a b m l k e s
/-- MPUSHZ (R282). -/
def execMpushz (h : Hd) (a b : BitVec 4) (m l k : BitVec 3) (e : BitVec 2) (s : State) : Out := pushOp h true a b m l k e s

/-! ### Shifts, drains and control items (R283 to R288) -/

/-- The row index s[A][12:0]. -/
def State.rowOf (s : State) (a : BitVec 6) : Nat := (s.rs a.toNat).toNat % 8192
/-- MSHIFT (R283). -/
def execMshift (h : Hd) (a : BitVec 6) (t : BitVec 2) (s : State) : Out :=
  mslot h true s fun s => s.item (.shift (s.rowOf a) t.toNat)
/-- MDRAIN (R284). -/
def execMdrain (h : Hd) (a : BitVec 6) (s : State) : Out := mslot h true s fun s => s.item (.drain (s.rowOf a))
/-- MC is FP32 or INT32. -/
def scoutMc (f : Word) : Bool := fmtMC f == 0 || fmtMC f == 8
/-- MSCOUT (R285): tmD enters the undo log at issue. -/
def execMscout (h : Hd) (d i : BitVec 3) (s : State) : Out :=
  mslot h true s (fun s =>
    if !scoutMc s.fmt then s.raise 0x020C
    else if d = 0 then s.item (.scout 0 (s.ifield i % 1024))
    else (s.logUndo (.tm d.toNat)).item (.scout d.toNat (s.ifield i % 1024))) [.tm d.toNat]
/-- MCELL (R286): its bank goes before ownership (R355). -/
def execMcell (h : Hd) (a : BitVec 6) (s : State) : Out :=
  slotOr h.q s (fun s => s.mBlocks true) fun s =>
    match localEA (s.rs a.toNat) 0 64 (2 ^ 22) with
    | none => s.raise (if s.arrMine then 0x020D else 0x0208)
    | some ea =>
      match s.claim [bankOf ea] with
      | none => s.raise 0x0201
      | some s' =>
        let p := leNat (s.spadRead ea 64)
        if !s.arrMine then s.raise 0x0208 else if progOk p then s'.item (.cell p) else s.raise 0x020A
/-- An array configuration word is legal (R122, R287). -/
def cfgOk (w : Nat) (f5 : Bool) : Bool :=
  decide (bits w 63 32 = 0) && decide (bits w 18 3 = 0) && decide (cfgFlow w ≠ 3) &&
  (!cfgQuad w || (decide (cfgFlow w = 0) && f5))
/-- The executing segment declares a feature. -/
def State.declares (s : State) (n : Nat) : Bool := match s.ctx.half with | some g => g.feats.testBit n | none => false
/-- MCFG (R287). -/
def execMcfg (h : Hd) (a : BitVec 6) (s : State) : Out :=
  mslot h true s fun s =>
    let w := (s.rs a.toNat).toNat
    if cfgOk w (s.declares 5) then s.item (.cfg w) else s.raise 0x020A
/-- MTHR (R288). -/
def execMthr (h : Hd) (a : BitVec 6) (s : State) : Out :=
  mslot h true s fun s =>
    let w := (s.rs a.toNat).toNat
    if bits w 31 1 ≠ 0 then s.raise 0x020A
    else if !scoutMc s.fmt then s.raise 0x020C
    else s.item (.thr w)
/-- TMOP (R289). -/
def execTmop (h : Hd) (d a b o : BitVec 3) (s : State) : Out :=
  mslot h false s (fun s => s.result 1 (.tm d.toNat) (.bits (logicW o 1024 (s.rtm a.toNat) (s.rtm b.toNat)))) [.tm d.toNat]

end Sys2Proof.Machine
end

