-- ==== Sys2Proof/Machine/Array.lean ====
section
/-! DEFINITION. The events of the cell array: entry, settling, landings, ownership, rollback (R113 to R131, R367). -/

namespace Sys2Proof.Machine

/-- An item that enters only behind settled beats and crossed waves (R113). -/
def ItemKind.waits : ItemKind → Bool
  | .drain .. | .scout .. | .shift .. | .cfg .. | .thr .. => true
  | _ => false

/-- The head of the feeder queue may enter in cycle `now` (R113). A snap token is no item and takes no cycle. -/
def Arr.mayEnter (r : Arr) (now : Nat) : Bool :=
  match r.items with
  | [] => false
  | i :: _ =>
    decide (i.elig ≤ now) &&
    match i.kind with
    | .snap => true
    | k => decide (r.free ≤ now) && (!k.waits || r.cross.all fun x => x.kind == 2 || decide (x.entry + 63 ≤ now))

/-- The rollback that awaits the array ends: every item left has entered and every wave has crossed. Ownership is again what it was at the
restart checkpoint (R367). -/
def Arr.tryRestore (r : Arr) : Arr :=
  match r.rest with
  | some (c, owned, rel) =>
    if r.items.isEmpty && r.cross.isEmpty then
      { r with
        grid := r.copy, edge := if owned then r.edgeCopy else r.edge, rest := none
        owner := some c, releasing := !owned || rel }
    else r
  | none => r

/-- A rollback of context `c` to the checkpoint of bundle `ser` reaches the array (R366 step 8, R367). -/
def Arr.rollback (r : Arr) (c ser : Nat) (owned rel : Bool) : Arr :=
  if r.owner = some c ∨ (r.owner = none ∧ owned) then
    ({ r with
      items := r.items.filter fun i => i.ctx != c || decide (i.ser ≤ ser)
      owner := some c, rest := some (c, owned, rel) } : Arr).tryRestore
  else r

/-- A wave begins to cross (R113, R131). -/
def Arr.wave (r : Arr) (now ctx kind : Nat) (fl : Flags) : Arr :=
  { r with cross := r.cross ++ [⟨now, ctx, kind, fl, r.grid⟩] }

/-- A compute beat enters (R106, R113, R123): the whole wave is worked out in its entry cycle, in the order in which the cells
depend on one another. -/
def Arr.beat (r : Arr) (now : Nat) (i : Item) (e a b sa sb : Nat) : Arr :=
  let f := i.fmt
  let A := (List.range 32).map (lineSeg a sa)
  let B := (List.range 32).map (lineSeg b sb)
  if cfgQuad r.edge.cfg then
    let (g, fl) := quadBeat f A B r.grid
    { r.wave now i.ctx 1 fl with grid := g, edge := { r.edge with n := r.edge.n + 1 } }
  else
    let bt : Beat := ⟨progEntry r.edge.prog e, f, (kgroup false (fmtMA f) (fmtMB f) (fmtMC f)).getD 0,
      progConst r.edge.prog 0, progConst r.edge.prog 1⟩
    let (w, south) := bt.rows A (List.range 32) B ⟨r.grid, 0, 0⟩
    let row := (cfgBase r.edge.cfg + r.edge.n) % 8192
    let exit (d : Nat) : List Exit := [⟨now + 67, i.ser, i.ctx, some row, d, true⟩]
    let out := match cfgFlow r.edge.cfg with
      | 0 => []
      | 1 => exit (ofLanes 32 (south.map (·.1)))
      | _ => exit w.chose
    { r.wave now i.ctx 1 w.flags with grid := w.grid, edge := { r.edge with n := r.edge.n + 1 }, exits := r.exits ++ out }

/-- The newest snap token on its way through the array. -/
def Arr.token (r : Arr) : Option Crossing := (r.cross.filter fun x => x.kind == 2).getLast?
/-- A cell's register as the token finds it (R131): what it now holds, where the token has still to come, else the copy it has made. -/
def recopy (now entry : Nat) (new old : Tab (BitVec 32)) : Tab (BitVec 32) :=
  (List.range 1024).map fun n => (n, tget 0 (if now < entry + n / 32 + n % 32 then new else old) n)
/-- An item that changes the cells and the threshold unit at once enters while a snap token crosses: what the token has not passed is
copied as it now stands (R131; log entry 8). -/
def Arr.overtake (r : Arr) (now : Nat) : Arr :=
  match r.token with
  | some x =>
    if now < x.entry + 63 then
      let f := recopy now x.entry
      { r with
        copy := ⟨f r.grid.acc r.copy.acc, f r.grid.c0 r.copy.c0, f r.grid.c1 r.copy.c1⟩
        edgeCopy := { r.edgeCopy with thr := r.edge.thr, thrMc := r.edge.thrMc, runmax := r.edge.runmax } }
    else r
  | none => r

/-- Bytes of an accumulator-memory row. -/
def Core.accRow (k : Core) (row : Nat) : Nat := leNat (Memory.read k.accm (128 * row) 128)

/-- The head item enters (R113): its context and the tile bit that it lands, if any. -/
def Core.enter (k : Core) (i : Item) (rest : List Item) : Core × Option (Nat × Nat) :=
  let now := k.cycle
  let r := { k.arr with items := rest }
  let took (r : Arr) : Core := { k with arr := { r with free := now + 1 } }
  let past (r : Arr) : Core := took (r.overtake now)
  match i.kind with
  | .snap => ({ k with arr := { r.wave now i.ctx 2 0 with copy := r.grid, edgeCopy := r.edge } }, none)
  | .clear => (took { r.wave now i.ctx 0 0 with grid := Grid.reset, copy := Grid.reset }, none)
  | .cell p => (took { r.wave now i.ctx 0 0 with edge := { r.edge with prog := p } }, none)
  | .beat e a b sa sb => (took (r.beat now i e a b sa sb), none)
  | .drain row =>
    let (acc, col) := shiftEast r.grid.acc 0
    (past { r with grid := { r.grid with acc := acc }, exits := r.exits ++ [⟨now + 5, i.ser, i.ctx, some row, col, false⟩] }, none)
  | .scout tm t =>
    let (acc, col) := shiftEast r.grid.acc 0
    let (m, hit) := scoutColumn (fmtMC i.fmt) r.edge.thr r.edge.thrMc col r.edge.runmax
    (past { r with
      grid := { r.grid with acc := acc }, edge := { r.edge with runmax := m }
      exits := r.exits ++ [⟨now + 5, i.ser, i.ctx, none, col, false⟩] },
      if hit && decide (tm ≠ 0) then some (tm, t) else none)
  | .shift row t =>
    let v := k.accRow row
    let g := match t with
      | 0 => { r.grid with acc := (shiftEast r.grid.acc v).1 }
      | 1 => { r.grid with c0 := (shiftEast r.grid.c0 v).1 }
      | _ => { r.grid with c1 := (shiftEast r.grid.c1 v).1 }
    (past { r with grid := g }, none)
  | .cfg w => (took { r with edge := { r.edge with cfg := w, n := 0 } }, none)
  | .thr w =>
    let m : Ext := if fmtMC i.fmt = 8 then .fin true (2 ^ 31) 0 else .inf true
    (past { r with edge := { r.edge with thr := w, thrMc := fmtMC i.fmt, runmax := m } }, none)

/-- The item reads cell registers (R370). -/
def ItemKind.readsCells : ItemKind → Bool
  | .beat .. | .drain .. | .scout .. | .shift .. => true
  | _ => false
/-- A rollback that has ended has read the copies of every cell (R367, R370): `was` is the state before. -/
def State.restoreRead (s was : State) : State :=
  match was.core.arr.rest with
  | some (c, _, _) => if s.core.arr.rest.isNone then s.readCells c else s
  | none => s
/-- What the cells' parity makes of an entered item: an item that writes every register leaves no mismatch. -/
def State.parity (s : State) (i : Item) : State :=
  match i.kind with
  | .clear => s.modCore fun k => { k with errs := k.errs.filter fun e => e.st != 10 }
  | k => if k.readsCells then s.readCells i.ctx else s
/-- ARRAY_ITEM_ENTRY (R113): the head of the feeder queue enters when it may. A scout's tile bit lands five cycles on (R285). -/
def execArrayItemEntry (s : State) : Out :=
  .next (
    let k := s.core
    match k.arr.items with
    | i :: rest =>
      if k.arr.mayEnter k.cycle then
        let (k', bit) := k.enter i rest
        let k' := { k' with arr := k'.arr.tryRestore }
        let k' := match bit with
          | some (tm, t) => k'.modCtx i.ctx fun c => c.onPipe fun p => { p with
              infl := addLanding ⟨k.cycle + 5, k.cycle + 5, i.ser, 0, .tm tm, .orBit (2 ^ t), 3, 0⟩ p.infl }
          | none => k'
        ((s.modCore fun _ => k').parity i).restoreRead s
      else s
    | [] => s)

/-- BEAT_SETTLE (R105, R113): waves that have crossed leave, and a beat's flags are set in AFLG. -/
def execBeatSettle (s : State) : Out :=
  .next (
    let k := s.core
    let done := k.arr.cross.filter fun x => decide (x.entry + 63 ≤ k.cycle)
    let k := { k with arr := ({ k.arr with cross := k.arr.cross.filter fun x => !decide (x.entry + 63 ≤ k.cycle) } : Arr).tryRestore }
    (s.modCore fun _ => done.foldl (fun k x => k.modCtx x.ctx fun c => c.onSys fun y => y.orFlags k.cycle 3 x.flags) k).restoreRead s)

/-- A row lands whole in accumulator memory; a scouted column lands nowhere. -/
def State.landRow (s : State) (e : Exit) : State :=
  match e.row with
  | some r => (s.localPut none 2 (128 * r) (leBytes 128 e.data)).modCore fun k => { k with landed := (32 + r) :: k.landed }
  | none => s
/-- An exit of a kind whose cycle has come. -/
def Exit.isDue (e : Exit) (now : Nat) (edge : Bool) : Bool := decide (e.due ≤ now) && e.edge == edge
/-- Rows due to land are written. -/
def State.landRows (s : State) (edge : Bool) : State :=
  let now := s.cyc
  ((s.core.arr.exits.filter fun e => e.isDue now edge).foldl State.landRow s).modArr fun r => { r with exits := r.exits.filter fun e => !e.isDue now edge }

/-- DRAIN_LANDING (R126, R127, R284): drained columns land in accumulator memory. -/
def execDrainLanding (s : State) : Out := .next (s.landRows false)
/-- EDGE_ROW_LANDING (R123): edge rows land. -/
def execEdgeRowLanding (s : State) : Out := .next (s.landRows true)

/-- Ownership ends: every item of the owner has entered and every drain has landed (R125, R290). -/
def Arr.ownershipEnds (r : Arr) : Bool :=
  r.releasing && r.rest.isNone && decide (r.count = 0) && r.exits.all (·.edge)
/-- ARRAY_OWNERSHIP_END (R125). -/
def execArrayOwnershipEnd (s : State) : Out :=
  .next (if s.core.arr.ownershipEnds then s.modArr fun r => { r with owner := none, releasing := false } else s)

/-- The grid as its cells stand in a cycle (R412): a cell that a wave has not reached holds what it held before. -/
def Arr.gridAt (r : Arr) (now : Nat) : Grid :=
  let cell (get : Grid → Tab (BitVec 32)) : Tab (BitVec 32) :=
    (List.range 1024).map fun n =>
      let g := match r.cross.find? fun x => x.kind != 2 && decide (now < x.entry + n / 32 + n % 32) with
        | some x => x.before
        | none => r.grid
      (n, tget 0 (get g) n)
  ⟨cell (·.acc), cell (·.c0), cell (·.c1)⟩

end Sys2Proof.Machine
end

