-- ==== Sys2Proof/Machine/Fetch.lean ====
section
/-! DEFINITION. Bundles of the instruction buffer: their words, the decode checks and the body rows of a modulo loop (R57, R58, R73, R207). -/

namespace Sys2Proof.Machine

/-- The words of the bundle at an offset: none when no word up to the last carries a stop bit; the flag says that a stop bit was found
before a ninth slot (R57). -/
def bundleFrom (code : List Nat) (off : Nat) : Nat → Option (List Nat × Bool)
  | 0 => if code.length ≤ off then none else some ([], false)
  | n + 1 =>
    if code.length ≤ off then none
    else
      let w := nth 0 code off
      if w.testBit 31 then some ([w], true)
      else (bundleFrom code (off + 1) n).map fun r => (w :: r.1, r.2)

/-- The bundle at an offset. -/
def Seg.bundle (g : Seg) (off : Nat) : Option (List Nat × Bool) := bundleFrom g.code off 8

/-- The length of the bundle at an offset, one word past the end. -/
def Seg.bundleLen (g : Seg) (off : Nat) : Nat := match g.bundle off with | some (ws, _) => ws.length | none => 1

/-- The instruction of a word, if it is well formed. -/
def instrOf (w : Nat) : Option Instr :=
  match decode w with
  | .ok i => if i.wf then some i else none
  | .error _ => none

/-- The slot names a block format in a field, which a segment without F0 reserves (R88, R219). -/
def Instr.namesDx : Instr → Bool
  | .vcvt _ _ _ f => f == 5 || f == 6
  | _ => false
/-- The segment declares F0 (R219). -/
def Seg.hasF0 (g : Seg) : Bool := g.feats.testBit 0
/-- The decode fault of one slot, in the order of R207. -/
def Seg.slotFault (g : Seg) (enclosed : Bool) (w : Nat) : Option Nat :=
  match decode w with
  | .error .undefinedOpcode => some 0x0101
  | .error .reservedField => some 0x0102
  | .ok i =>
    if !i.wf || (Instr.namesDx i && !g.hasF0) then some 0x0102
    else if (match i.feature with | some f => !(g.feats.testBit f) | none => false) then some 0x0108
    else if (i.hd.q != 0) && !enclosed then some 0x0106
    else none

/-- Classes rise and stay within their counts (R58). -/
def classesOk : List Nat → Bool
  | a :: b :: t => decide (a ≤ b) && (decide (a ≠ b) || ((decide (a = 1) || decide (a = 2)) && decide (t.head? ≠ some a))) && classesOk (b :: t)
  | _ => true

/-- The class of a word. -/
def wordClass (w : Nat) : Nat := w / 2 ^ 28 % 8
/-- The width that a V slot's W field names, W = 11 counting as 1024 (R58). -/
def wordWidth (w : Nat) : Nat := match w / 2 ^ 24 % 4 with | 0 => 256 | 1 => 512 | _ => 1024
/-- The two slots of a vector class fit in 1024 bits. -/
def widthsOk (ws : List Nat) : Bool :=
  let sum (c : Nat) : Nat := ((ws.filter fun w => wordClass w == c).map wordWidth).sum
  decide (sum 1 ≤ 1024) && decide (sum 2 ≤ 1024)

/-- The instruction transfers control (R64, R237, R249, R332). -/
def Instr.isTransfer : Instr → Bool
  | .br .. | .brk .. | .call .. | .ret .. | .seg .. | .lpbrk .. | .taskend .. | .eret .. => true
  | _ => false

/-- The first slot whose own checks fail: its code and position. -/
def firstFault (g : Seg) (enclosed : Bool) : Nat → List Nat → Option (Nat × Nat)
  | _, [] => none
  | n, w :: t =>
    match g.slotFault enclosed w with
    | some c => some (c, n)
    | none => firstFault g enclosed (n + 1) t

/-- The decode fault of a bundle, in the order of R207: code and slot. `delay` says it is a delay bundle, `bend` that it lies at a
BEND that counts as a transfer (R76). -/
def bundleFault (g : Seg) (enclosed delay bend stops : Bool) (ws : List Nat) : Option (Nat × Nat) :=
  match firstFault g enclosed 0 ws with
  | some f => some f
  | none =>
    if !stops || !classesOk (ws.map wordClass) then some (0x0103, 0)
    else if !widthsOk ws then some (0x0104, 0)
    else if delay && (bend || ws.any fun w => match instrOf w with | some i => Instr.isTransfer i | none => false) then some (0x0105, 0)
    else none

/-- The rows of a body from an offset, the last at BEND, and where they end: at BEND, behind it, or at a row that is not one bundle. -/
inductive RowsEnd where
  | whole
  | past
  | torn (off : Nat)
  deriving DecidableEq, Repr
def bodyRows (g : Seg) (bend : Nat) : Nat → Nat → List (Nat × List Nat) × RowsEnd
  | 0, _ => ([], .past)
  | n + 1, off =>
    if bend < off then ([], .past)
    else match g.bundle off with
      | some (ws, true) =>
        if off = bend then ([(off, ws)], .whole)
        else ((off, ws) :: (bodyRows g bend n (off + ws.length)).1, (bodyRows g bend n (off + ws.length)).2)
      | _ => ([], .torn off)

/-- Slots of merged rows in class order, earlier stages first within a class (R73). -/
def mergeRows (rows : List (Nat × List Nat)) : List (Nat × Nat) :=
  let all := rows.flatMap fun r => r.2.map fun w => (r.1, w)
  (List.range 8).flatMap fun c => all.filter fun x => wordClass x.2 == c

/-- A body row breaks a check of its own (R73). -/
def rowBad (g : Seg) (r : Nat × List Nat) : Bool :=
  (firstFault g true 0 r.2).isSome || !classesOk (r.2.map wordClass) || !widthsOk r.2 ||
    r.2.any fun w => match instrOf w with | some (.br ..) | some (.call ..) | some (.ret ..) | some (.seg ..) => true | _ => false

/-- The slots of merged rows make one bundle: by class counts and vector widths (R58, R73), and in no more slots than a core issues in a cycle
(R18, R57; DEDUCED, log entry 54). -/
def mergedOk (ws : List Nat) : Bool := classesOk (ws.map wordClass) && widthsOk ws && decide (ws.length ≤ 8)

/-- The first row, in row order, that takes part in a failed check of a modulo body of `st` stages at interval `ii` (R73). A kernel row
is checked when all its body rows are there. -/
def modFault (g : Seg) (rows : List (Nat × List Nat)) (ii st : Nat) : Option Nat :=
  (List.range rows.length).findSome? fun r =>
    let row := nth (0, []) rows r
    let kernel := (List.range st).map fun j => nth (0, []) rows (r + j * ii)
    let merged := (mergeRows kernel).map (·.2)
    let whole := decide (r < ii) && decide (r + (st - 1) * ii < rows.length)
    if rowBad g row || (whole && !mergedOk merged) then some row.1 else none

end Sys2Proof.Machine
end

