-- ==== Sys2Proof/Machine/Control.lean ====
section
/-! DEFINITION. The control and sequencer instructions (R237 to R249). -/

namespace Sys2Proof.Machine

/-! ### Transfers (R64, R237) -/

/-- The executing segment. -/
def State.seg (s : State) : Seg := s.ctx.half.getD default

/-- The outermost active level's body holds an offset. -/
def Ctx.inNest (c : Ctx) (off : Nat) : Bool :=
  decide (0 < c.ctl.depth) && (tget Level.reset c.regs.lvl (c.ctl.depth - 1)).has off

/-- A displacement target: the branch bundle's first slot plus sext(DISP, 15) slot words, if it is a slot of the code (R209). -/
def State.dispTarget (s : State) (d : BitVec 15) : Target :=
  let t : Int := s.ctx.cur.off + d.toInt
  if 0 ≤ t ∧ t < s.seg.code.length then .off t.toNat
  else .bad ((s.ctx.ctl.seg + 64 + 4 * t) % 2 ^ 64).toNat

/-- The transfer leaves the nest: its target is outside the outermost active body (R237). -/
def State.leaves (s : State) (t : Target) : Bool :=
  decide (0 < s.ctx.ctl.depth) && match t with | .off n => !s.ctx.inNest n | _ => true

/-- The two delay bundles begin after this bundle (R64): the count includes the transfer's own bundle. A transfer that leaves a
modulo loop leaves IDX of L0 at its own iteration (R75). -/
def State.transfer (s : State) (t : Option Target) (drain leave bendOk : Bool) : State :=
  let s := match leave, s.ctx.cur.iter with
    | true, some (_, _, a) => s.writeNow (.lvl 0) (.lvl { s.lvl 0 with idx := a })
    | _, _ => s
  s.modCtl fun c => { c with xfer := some ⟨3, t, drain && t.isSome, leave, bendOk, leave && s.ctx.cur.iter.isSome⟩ }

/-- A transfer slot: taken or not, it has its delay bundles; one that its Q does not issue is not taken (R237). -/
def xferSlot (q : BitVec 2) (bendOk : Bool) (s : State) (f : State → State) : Out :=
  .next (if s.qIssues q then f s else s.transfer none false false bendOk)

/-- The condition of the C-B form: p[PRED] equals SENSE. -/
def State.senses (s : State) (p : BitVec 3) (e : BitVec 1) : Bool := s.rp p.toNat == (e == 1)

/-- BR (R238). -/
def execBr (h : Hd) (n : BitVec 1) (p : BitVec 3) (e : BitVec 1) (d : BitVec 15) (s : State) : Out :=
  xferSlot h.q false s fun s =>
    let t := s.dispTarget d
    if s.senses p e then s.transfer (some t) (n == 1) (s.leaves t) false else s.transfer none false false false

/-- BRK (R240): all ones branches, all zeros falls through, a mix faults. -/
def execBrk (h : Hd) (n c : BitVec 1) (k : BitVec 3) (d : BitVec 15) (s : State) : Out :=
  xferSlot h.q true s fun s =>
    let cl := c == 1
    let w := 1024 / elemBits (s.vf cl)
    let m := s.rk cl k.toNat % 2 ^ w
    let t := s.dispTarget d
    if m + 1 = 2 ^ w then s.transfer (some t) (n == 1) (s.leaves t) true
    else if m = 0 then s.transfer none false false true
    else (s.transfer none false false true).raise 0x0202

/-- Where issue goes after the bundle at `off` when it lies at a BEND, levels from `j` up (R69). -/
def bendNext (r : Regs) (inside : List Nat) (off next : Nat) : Nat → Nat → Nat
  | 0, _ => next
  | n + 1, j =>
    let l := tget Level.reset r.lvl j
    if inside.contains j && decide (l.bend = off) then
      if (l.nextIter (l.idx + 1)).isSome then l.bstart else bendNext r inside off next n (j + 1)
    else bendNext r inside off next n (j + 1)

/-- The levels whose body holds an offset. -/
def stillInside (r : Regs) (inside : List Nat) (off : Nat) : List Nat :=
  inside.filter fun j => (tget Level.reset r.lvl j).has off

/-- The outermost level that issue enters at its BSTART from outside (R69). -/
def entering (r : Regs) (off : Nat) (inside : List Nat) : Nat → Option Nat
  | 0 => none
  | n + 1 =>
    let l := tget Level.reset r.lvl n
    if decide (l.bstart = off) && l.has off && !inside.contains n then some n else entering r off inside n

/-- Level `j` issues no iteration (R69, R71, R74). -/
def Level.noIter (l : Level) : Bool := (l.nextIter 0).isNone

/-- Where issue settles from an offset: past the bodies that it enters and that issue no iteration (R69). -/
def entrySkip (g : Seg) (r : Regs) (depth : Nat) : Nat → Nat → List Nat → Nat × List Nat
  | 0, off, ins => (off, ins)
  | n + 1, off, ins =>
    match entering r off ins depth with
    | none => (off, ins)
    | some j =>
      let l := tget Level.reset r.lvl j
      if l.noIter then
        let next := l.bend + g.bundleLen l.bend
        entrySkip g r depth n next (stillInside r ins next)
      else entrySkip g r depth n off (j :: ins)

/-- The address of the bundle that follows the CALL's second delay bundle in issue order (R239): the step of the CALL's own bundle, then
address order, past levels that issue no iteration. -/
def State.callLink (s : State) : Nat :=
  let c := s.ctx
  let g := s.seg
  let n1 := bendNext c.regs c.ctl.inside c.ctl.off (c.ctl.off + g.bundleLen c.ctl.off) c.ctl.depth 0
  let settle (x : Nat × List Nat) : Nat × List Nat := entrySkip g c.regs c.ctl.depth 12 x.1 x.2
  let next (x : Nat × List Nat) : Nat × List Nat := settle (x.1 + g.bundleLen x.1, x.2)
  codeVa c.ctl.seg (next (next (settle (n1, stillInside c.regs c.ctl.inside n1)))).1

/-- CALL (R239): the link lands at issue + 1. -/
def execCall (h : Hd) (n : BitVec 1) (p : BitVec 3) (e : BitVec 1) (d : BitVec 15) (s : State) : Out :=
  xferSlot h.q false s fun s =>
    if s.senses p e then
      (s.transfer (some (s.dispTarget d)) (n == 1) false false).resultS 1 63 (BitVec.ofNat 64 s.callLink)
    else s.transfer none false false false

/-- The target of a RET: a slot of the executing segment's code (R239). -/
def State.retTarget (s : State) : Target :=
  let a := (s.rs 63).toNat
  let base := s.ctx.ctl.seg + 64
  if base ≤ a ∧ a % 4 = 0 ∧ (a - base) / 4 < s.seg.code.length ∧ (a - base) % 4 = 0 then .off ((a - base) / 4) else .bad a

/-- RET (R239). -/
def execRet (h : Hd) (n : BitVec 1) (p : BitVec 3) (e : BitVec 1) (s : State) : Out :=
  xferSlot h.q false s fun s =>
    let t := s.retTarget
    if s.senses p e then s.transfer (some t) (n == 1) (s.leaves t) false else s.transfer none false false false

/-- SEG (R241): kind 0 names NEXT, 1 ALT, 2 the address in s[A], bits [55:0] of it (R146); a pointer 0 is no slot. -/
def execSeg (h : Hd) (n : BitVec 1) (p : BitVec 3) (e : BitVec 1) (k : BitVec 2) (r : BitVec 6) (s : State) : Out :=
  xferSlot h.q false s fun s =>
    let va := match k.toNat with | 0 => s.seg.next | 1 => s.seg.alt | _ => (s.rs r.toNat).toNat % 2 ^ 56
    if s.senses p e then
      if k.toNat = 2 ∧ va % 64 ≠ 0 then (s.transfer none false false false).raise 0x0303 va
      else
        let t : Target := if k.toNat ≠ 2 ∧ va = 0 then .bad 0 else .seg va
        s.transfer (some t) (n == 1) (decide (0 < s.ctx.ctl.depth)) false
    else s.transfer none false false false

/-! ### The loop sequencer (R242 to R246) -/

/-- A nest is active, or is held aside while the handler runs (R242, R331). -/
def Ctx.nestActive (c : Ctx) : Bool :=
  decide (0 < c.ctl.depth) || match c.aside with | some a => decide (0 < a.1.depth) | none => false

/-- A write of a level's state at issue + 1; 0x020B while a nest is active or when the operand is bad (R242), behind 0x0206 (R355). -/
def lpWrite (h : Hd) (j : Nat) (s : State) (f : State → Level → Option Level) : Out :=
  slot h.q s fun s =>
    if s.undoFull [.lvl j] then s.raise 0x0206
    else if s.ctx.nestActive then s.raise 0x020B
    else match f s (s.lvl j) with
      | none => s.raise 0x020B
      | some l => s.result 1 (.lvl j) (.lvl l)

/-- LPSET (R243). -/
def execLpset (h : Hd) (l : BitVec 3) (a b : BitVec 6) (s : State) : Out :=
  lpWrite h l.toNat s fun s v =>
    let x := s.rs b.toNat
    let body := x &&& 0x0FFF0FFF
    if x ≠ body then none
    else some { v with
      trip := wbits (s.rs a.toNat) 31 0, bstart := wbits x 11 0, bend := wbits x 27 16, idx := 0, strides := []
      modulo := v.modulo && decide (l ≠ 0), tiled := v.tiled && decide (l ≠ 0) }

/-- LPSTRD (R243): A = 0 frees the pair. -/
def execLpstrd (h : Hd) (l : BitVec 3) (k : BitVec 2) (a b : BitVec 6) (s : State) : Out :=
  lpWrite h l.toNat s fun s v =>
    some { v with strides := if a = 0 then tdel v.strides k.toNat else tset v.strides k.toNat (a.toNat, s.rs b.toNat) }

/-- LPMOD (R243). -/
def execLpmod (h : Hd) (i t : BitVec 4) (s : State) : Out :=
  lpWrite h 0 s fun _ v => some { v with ii := i.toNat + 1, st := t.toNat + 1, modulo := true }

/-- LPMASK (R243). -/
def execLpmask (h : Hd) (m : BitVec 3) (s : State) : Out :=
  lpWrite h 0 s fun _ v => some { v with tm := m.toNat, tiled := true }

/-- The checks of R68 on the levels below `d`. -/
def nestOk (s : State) (d : Nat) : Bool :=
  let lv (j : Nat) : Level := s.lvl j
  !s.ctx.nestActive && decide (0 < d) &&
  ((List.range d).all fun j =>
    decide ((lv j).bstart ≤ (lv j).bend) && decide ((lv j).bend < s.seg.code.length) &&
    (decide (j = 0) || (decide ((lv j).bstart ≤ (lv (j - 1)).bstart) && decide ((lv (j - 1)).bend ≤ (lv j).bend)))) &&
  !(lv (d - 1)).has s.ctx.cur.off

/-- The failed check of a modulo L0 (R73, R244): the address of the first row that takes part. Every row takes part in the count of
rows. -/
def moduloFault (s : State) : Option Nat :=
  let l := s.lvl 0
  if !l.modulo then none
  else
    let (rows, ends) := bodyRows s.seg l.bend 4096 l.bstart
    let row := match ends with
      | .whole => if rows.length = l.st * l.ii then modFault s.seg rows l.ii l.st else some l.bstart
      | .past => some l.bstart
      | .torn off => (modFault s.seg rows l.ii l.st).or (some off)
    row.map (codeVa s.ctx.ctl.seg)

/-- The level as LPGO activates it: IDX 0 and, in a tile-mask L0, MASK copied (R74, R244). -/
def State.goLevel (s : State) (j : Nat) : Level :=
  let l := s.lvl j
  { l with idx := 0, mask := if j = 0 ∧ l.tiled then BitVec.ofNat 1024 (s.rtm l.tm % 2 ^ l.trip) else l.mask }

/-- LPGO (R244): 0x0107 goes before 0x020B. -/
def execLpgo (h : Hd) (d : BitVec 3) (s : State) : Out :=
  slot h.q s fun s =>
    match moduloFault s with
    | some a => s.raise 0x0107 a
    | none =>
      let l := s.lvl 0
      if s.undoFull ((List.range d.toNat).map RegId.lvl) then s.raise 0x0206
      else if !nestOk s d.toNat || (l.tiled && !(decide (1 ≤ l.trip) && decide (l.trip ≤ 1024))) then s.raise 0x020B
      else ((List.range d.toNat).foldl (fun t j => t.result 1 (.lvl j) (.lvl (s.goLevel j))) s).modCtl
        fun c => { c with depth := d.toNat, inside := [], kern := none, begun := false, ahead := [] }

/-- LPBRK (R245): a taken one leaves the nest. -/
def execLpbrk (h : Hd) (n : BitVec 1) (p : BitVec 3) (e : BitVec 1) (d : BitVec 15) (s : State) : Out :=
  xferSlot h.q true s fun s =>
    if s.ctx.ctl.depth = 0 then (s.transfer none false false true).raise 0x020B
    else if s.senses p e then s.transfer (some (s.dispTarget d)) (n == 1) true true
    else s.transfer none false false true

/-- LPIDX (R246). -/
def execLpidx (h : Hd) (g : BitVec 2) (d : BitVec 6) (l : BitVec 3) (s : State) : Out :=
  guarded h g s fun s => s.resultS 1 d.toNat (BitVec.ofNat 64 (s.ridx l.toNat))

/-! ### Checkpoints and task control (R247 to R249) -/

/-- CKPT (R247). -/
def execCkpt (h : Hd) (s : State) : Out :=
  slotOr h.q s State.ckptFull fun s => if s.inShadow then s.raise 0x0207 else s.markCkpt

/-- YIELD (R248): the context gives up issue after this bundle. -/
def execYield (h : Hd) (s : State) : Out := slot h.q s fun s => s.modCtx fun c => { c with yielding := true }

/-- A release of the array begins, if the context owns it (R125). -/
def State.releaseArray (s : State) : State :=
  s.modArr fun r => if r.owner = some s.sub then { r with releasing := true } else r

/-- Every request whose entry a TASKEND discards is answered (R398). -/
def Queues.entriesBack (q : Queues) : Bool := q.ldq.all (·.done) && q.gdq.all (·.whole) && q.dropped.isEmpty && q.gDropped.isEmpty
/-- A TASKEND blocks: no room for its checkpoint, or a discarded entry's request is unanswered (R398). -/
def State.taskendBlocks (s : State) : Bool :=
  let q := s.ctx.q
  s.ckptFull || !q.entriesBack

/-- TASKEND (R249): deferred errors still pending report here (R356); else the bundle is a checkpoint bundle and the array is released.
The nest ends with the bundle. -/
def execTaskend (h : Hd) (s : State) : Out :=
  slotOr h.q s State.taskendBlocks fun s =>
    if s.holdFull then s.raise 0x0205
    else match s.ctx.q.firstDeferred fun _ => true with
      | some d => s.reportDeferred d
      | none => (s.ckptBundle .taskend).releaseArray

end Sys2Proof.Machine
end

