-- ==== Sys2Proof/Machine/Sequencer.lean ====
section
/-! DEFINITION. The loop sequencer between bundles: entries, steps, strides, kernel cycles, and the end of a bundle (R64 to R76, R80). -/

namespace Sys2Proof.Machine

/-! ### Issued iterations (R71, R74) -/

/-- Iterations that a level issues: N of R71. -/
def Level.count (l : Level) : Nat := if l.tiled then popcount (l.mask.toNat % 2 ^ l.trip) l.trip else l.trip

/-- The index of the `n`-th one bit at or after `i`, below a bound of `k` more bits. -/
def nthOne (m : Wide) (n i : Nat) : Nat → Nat
  | 0 => i
  | k + 1 => if m.getLsbD i then (if n = 0 then i else nthOne m (n - 1) (i + 1) k) else nthOne m n (i + 1) k

/-- The actual number a_n of issued iteration `n`. -/
def Level.actual (l : Level) (n : Nat) : Nat := if l.tiled then nthOne l.mask n 0 l.trip else n

/-! ### Strides (R69, R71) -/

/-- The stride writes of `d` iterations of a level: register and amount; none of no iteration (R71, R81). -/
def Level.strideOf (l : Level) (d : Nat) : List (Nat × Word) :=
  if d = 0 then [] else l.strides.map fun e => (e.2.1, BitVec.ofNat 64 d * e.2.2)

/-- Amounts to one register are summed. -/
def mergeStrides : List (Nat × Word) → List (Nat × Word)
  | [] => []
  | (r, v) :: t =>
    let rest := mergeStrides t
    if rest.any (·.1 == r) then rest.map fun e => if e.1 = r then (r, e.2 + v) else e else (r, v) :: rest

/-- What the sequencer does before a bundle stands when that bundle follows a restart point (R366): its write is logged with the bundle before, and
right behind the restart checkpoint not at all. -/
def Pipe.logsPrior (p : Pipe) (r : RegId) : Bool :=
  !r.discards && decide (p.restart.ser + 1 ≠ p.ser) && !(p.undo.any fun u => u.ser + 1 == p.ser && decide (u.reg = r))
/-- A register written by the sequencer between two bundles (R81). -/
def State.writePrior (s : State) (r : RegId) (v : RegVal) : State :=
  let logs := s.ctx.pipe.logsPrior r
  if logs && decide (256 ≤ s.ctx.pipe.undo.length) then s.raise 0x0206
  else
    (if logs then s.modCtx fun c => c.onPipe fun p => { p with undo := ⟨p.ser - 1, r, c.regs.get r⟩ :: p.undo } else s).modRegs fun g => g.put r v
/-- The checkpoint of the bundle before restarts behind what the sequencer has done since (R366). -/
def State.priorDone (s : State) : State :=
  s.modCtx fun c => c.onPipe fun p =>
    let f (k : Ckpt) : Ckpt := if k.ser + 1 = p.ser then { k with ctl := c.ctl } else k
    { p with restart := f p.restart, cks := p.cks.map f }
/-- A stride that the bundle about to issue sees applied; one in a register that awaits an earlier write clashes with it (R368). -/
def State.strideOne (s : State) (e : Nat × Word) : State :=
  let p := s.ctx.pipe
  let v := if p.lost.contains (p.ser - 1, .s e.1) then s.free (RegId.s e.1).tag 64 else (s.rs e.1 + e.2).toNat
  (s.writePrior (.s e.1) (.bits v)).modPipe fun q => { q with
    clash := q.clash ++ (p.infl.filter fun x => decide (x.reg = .s e.1) && decide (x.ser + 1 < p.ser)).map fun x => (x.ser, p.ser - 1, .s e.1) }
/-- Strides that the bundle about to issue sees applied (R71, R74). -/
def State.strideNow (s : State) (l : List (Nat × Word)) : State := (mergeStrides l).foldl State.strideOne s

/-- Stride writes of a BEND step: latency 1, behind every slot of the bundle (R69, R228). -/
def State.strideNext (s : State) (l : List (Nat × Word)) : State :=
  (mergeStrides l).foldl (fun s e => (s.logUndo (.s e.1)).modPipe fun p =>
    { p with infl := addLanding ⟨s.cyc + 1, s.cyc, p.ser, 8, .s e.1, .bits (s.rs e.1 + e.2).toNat, 0, 0⟩ p.infl }) s

/-! ### Steps at a BEND (R69, R74) -/

/-- What the steps at a BEND make: levels with their new index, strides, levels left inside, the next offset. -/
structure Step where
  idx : List (Nat × Nat)
  strides : List (Nat × Word)
  inside : List Nat
  off : Nat
  deriving DecidableEq, Repr

/-- The steps of the levels from `j` up whose body ends with the bundle at `off`, innermost first; `next` follows the bundle. -/
def bendSteps (r : Regs) (off next : Nat) : Nat → Nat → List Nat → Step
  | 0, _, ins => ⟨[], [], ins, next⟩
  | n + 1, j, ins =>
    let l := tget Level.reset r.lvl j
    if ins.contains j && decide (l.bend = off) then
      match l.nextIter (l.idx + 1) with
      | some i => ⟨[(j, i)], l.strideOf (i - l.idx), ins, l.bstart⟩
      | none =>
        let t := bendSteps r off next n (j + 1) (ins.filter (· != j))
        { t with idx := (j, 0) :: t.idx, strides := l.strideOf (if l.tiled then l.trip - l.idx else 1) ++ t.strides }
    else bendSteps r off next n (j + 1) ins

/-- The steps take effect; one undo entry for each level and register, or the fault 0x0206 (R81). -/
def State.takeSteps (s : State) (t : Step) : State :=
  let regs := (t.idx.map fun e => RegId.lvl e.1) ++ (mergeStrides t.strides).map fun e => RegId.s e.1
  if s.undoFull regs then (s.modCtx fun c => { c with cur := { c.cur with pos := 0 } }).raise 0x0206
  else
    let s := (t.idx.foldl (fun s e => s.writeNow (.lvl e.1) (.lvl { s.lvl e.1 with idx := e.2 })) s).strideNext t.strides
    s.modCtl fun c =>
      let past := decide (0 < c.depth) && !t.inside.contains (c.depth - 1)
      { c with off := t.off, inside := if past then [] else t.inside, depth := if past then 0 else c.depth, kern := none, begun := false }

/-- The levels entered when issue moves to an offset within the nest (R69). -/
def insideAt (r : Regs) (depth : Nat) (inside : List Nat) (off : Nat) : List Nat :=
  (List.range depth).filter fun j =>
    let l := tget Level.reset r.lvl j
    l.has off && (inside.contains j || decide (off ≠ l.bstart))

/-! ### Control after a bundle (R64, R69, R71, R75) -/

/-- The nest ends (R68, R75). -/
def Ctl.endNest (c : Ctl) : Ctl := { c with depth := 0, inside := [], kern := none, begun := false, ahead := [] }
/-- The context is in the delay bundles of a transfer that leaves the nest, or in the bundle of that transfer (R75). -/
def Ctx.leaving (c : Ctx) : Bool := match c.ctl.xfer with | some x => x.leave | none => false

/-- The last kernel cycle of a modulo L0 (R71). -/
def Level.lastKernel (l : Level) : Nat := (l.count + l.st - 1) * l.ii - 1

/-- The delay bundles of the transfer that leaves the nest are kernel cycles (R75). -/
def Ctx.leavingKernel (c : Ctx) : Bool := match c.ctl.xfer with | some x => x.leave && x.inKernel | none => false
/-- Issue goes on at a step's offset while the nest is being left: no level steps, and a plain level only goes ahead (R75). -/
def State.goAhead (s : State) (t : Step) : State :=
  s.modCtl fun c => { c with off := t.off, inside := t.inside, kern := none, begun := false, ahead := c.ahead ++ t.idx }

/-- The control state moves past the bundle in issue: the next row, the steps of a BEND, or the next bundle. Behind a transfer that
leaves the nest no level steps (R75): where it issued in a kernel cycle, kernel cycles go on, empty ones past the last (log entry 52); in
plain code issue goes on in body order, past the last kernel cycle of a modulo L0 behind its BEND. -/
def State.advanceOff (s : State) : State :=
  let c := s.ctx
  let next := c.ctl.off + (s.seg.bundleLen c.ctl.off)
  match c.ctl.kern with
  | some k =>
    let l := s.lvl 0
    if c.leavingKernel || decide (k < l.lastKernel) then s.modCtl fun c => { c with kern := some (k + 1), begun := false }
    else
      let t := bendSteps c.runRegs l.bend (l.bend + s.seg.bundleLen l.bend) (c.ctl.depth - 1) 1 (c.ctl.inside.filter (· != 0))
      if c.leaving then s.goAhead t
      else (s.takeSteps { t with idx := (0, 0) :: t.idx }).modCtl fun c =>
        { c with tail := if l.st = 1 then l.trip - l.actual (l.count - 1) else 0 }
  | none =>
    let t := bendSteps c.runRegs c.ctl.off next c.ctl.depth 0 c.ctl.inside
    if c.leaving then s.goAhead t
    else if t.idx.isEmpty then s.modCtl fun c => { c with off := next }
    else s.takeSteps t

/-- A demand fetch of a segment, or its prefetch, begins (R77, R78). -/
def State.startFetch (s : State) (va : Nat) (pre : Bool) : State :=
  (s.modCtx fun c => { c with fetch := some (va, pre) }).post s.focus s.sub (if pre then .segmentPrefetchComplete else .segmentFetchComplete)

/-- Issue goes to the entry of a segment, with no nest; the segment that is executing is fetched again (R78, R79). A transfer still in its
delay bundles has its displacement target in the code left behind (R209). -/
def State.toSegment (s : State) (va : Nat) : State :=
  let self := match s.ctx.half, s.ctx.idle with
    | some h, some i => h.va == va && i.va != va
    | some h, none => h.va == va
    | none, _ => false
  let far (x : Xfer) : Xfer := match x.target with
    | some (.off n) => { x with target := some (.bad (codeVa s.ctx.ctl.seg n)) }
    | _ => x
  let s := s.modCtl fun c => { c.endNest with seg := va, off := 0, entry := true, xfer := c.xfer.map far }
  if self then s.startFetch va false else s

/-- A taken transfer moves issue to its target (R64, R78, R237). -/
def State.takeTarget (s : State) (x : Xfer) : State :=
  match x.target with
  | none => s.modCtl fun c => { c with xfer := none }
  | some t =>
    let s := s.modCtx fun c => { c with drain := c.drain || x.drain }
    let s := s.modCtl fun c => { (if x.leave then c.endNest else c) with xfer := none }
    match t with
    | .off n =>
      s.modCtx fun c => c.onCtl fun k =>
        { k with off := n, kern := none, begun := false, inside := if c.inNest n then insideAt c.regs k.depth k.inside n else k.inside }
    | .bad va => s.modCtl fun c => { c with bad := some va }
    | .seg va => s.toSegment va

/-- The transfer's count of bundles goes on. -/
def State.countXfer (s : State) : State :=
  match s.ctx.ctl.xfer with
  | none => s
  | some x =>
    if 1 < x.left then s.modCtl fun c => { c with xfer := some { x with left := x.left - 1 } }
    else s.takeTarget x

/-! ### The end of a bundle (R59, R80, R86) -/

/-- The context owns the array, a release under way or not (R125). -/
def State.ownsArray (s : State) : Bool := decide (s.core.arr.owner = some s.sub)

/-- The checkpoint of the bundle records what a rollback to it restores (R366); with the array owned, a snap token follows the
beats issued before it (R86, R131). It is a pre-emption point without the array, or behind MREL (R52, R290). A faulting bundle's
checkpoint never confirms (R364). -/
def State.fillCkpt (s : State) : State :=
  let ser := s.ctx.pipe.ser
  if !(s.ctx.pipe.cks.any fun k => k.ser == ser) then s
  else if s.ctx.pipe.fault.isSome then s.modPipe fun p => { p with cks := p.cks.filter fun k => k.ser != ser }
  else
    let owned := s.ownsArray
    let rel := owned && s.core.arr.releasing
    let c := s.ctx
    let k : Ckpt := ⟨ser, s.cyc, c.ctl, c.regs.cb.map fun e => (e.1, e.2.rp), c.q.tl, owned, rel, !owned || rel, c.q.fo⟩
    let s := s.modPipe fun p => { p with cks := p.cks.map fun x => if x.ser = ser then k else x }
    if owned then s.modArr fun r => { r with items := r.items ++ [⟨ser, s.sub, s.cyc + 8, s.fmt, .snap⟩] } else s

/-- The context is bound, or has operations of its engines still to be done. -/
def Ctx.live (c : Ctx) : Bool := c.bind.isSome || !c.q.cmds.isEmpty || !c.q.colls.isEmpty || !c.q.stq.isEmpty
/-- The array has items, waves or rows under way, or a release that has not ended. -/
def Arr.busy (r : Arr) : Bool := !r.items.isEmpty || !r.cross.isEmpty || !r.exits.isEmpty || r.releasing
/-- Cores on which a context is live or the array at work, in order. -/
def State.liveCores (s : State) : List Nat :=
  (s.cores.filter fun e => e.2.on && (e.2.arr.busy || e.2.ctxs.any fun c => c.2.live)).map (·.1)
/-- The core that moves after this one (log entry 4): the next with a bound context. -/
def State.nextCore (s : State) : Loc :=
  let l := s.liveCores
  match l.find? fun n => decide (locKey s.focus < n) with
  | some n => keyLoc n
  | none => match l with | n :: _ => keyLoc n | [] => s.focus

/-- The region that a cycle is charged to: that of the context switched to, else of the context that issued most recently; none while
no context is bound (R46). That region is the one of its issue, whatever the context is bound to since, and none before the core's first issue (DESIGN
CHOICE, log entry 71). -/
def Core.charged (k : Core) : Option Nat :=
  if !(k.ctxs.any fun c => c.2.bind.isSome) then none
  else match (if 0 < k.switch then k.cur.bind fun c => (k.ctx c).bind else none) with
    | some b => some b.blk
    | none => k.lastBlk

/-- One cycle of the core passes: its count, its charge while a context is bound, and the rows that landed in it (R46, R141, R330). -/
def Core.pass (k : Core) : Core :=
  let now := k.cycle
  { k with
    cycle := now + 1
    charge := match k.charged with | some b => tmod 0 k.charge b (· + 1) | none => k.charge
    switch := k.switch - 1
    recent := k.recent.filter fun r => decide (now ≤ r.2.2)
    accOld := []
    busy := k.landed
    landed := [] }

/-- The task ends with the bundle in issue (R249): the nest ends, and no level steps. -/
def State.endsTask (s : State) : Bool :=
  match s.ctx.pipe.waits 3 with | some w => w.ser == s.ctx.pipe.ser | none => false

/-- The bundle has issued: steps, transfer, checkpoint, and the cycle passes with the banks and rows that the bundle occupied (R137, R141). -/
def State.finishBundle (s : State) : State :=
  let claims := s.ctx.claims
  let s := if s.endsTask then s.modCtl Ctl.endNest else s
  let s := ((s.advanceOff).countXfer).fillCkpt
  let s := s.modCtx fun c => { c with
    claims := []
    latch := []
    pipe := { c.pipe with horizon := s.cyc + 8, ser := c.pipe.ser + 1, tl0 := c.q.tl } }
  let s := s.modCore fun k =>
    let blk := match s.ctx.bind with | some b => some b.blk | none => k.lastBlk
    let k' := ({ k with last := some s.sub, lastBlk := blk, switch := 0 } : Core).pass
    { k' with cur := if s.ctx.yielding then none else some s.sub, busy := k'.busy ++ claims }
  { s with focus := s.nextCore }

/-! ### Kernel cycles (R71, R72) -/

/-- The slots of kernel cycle `k`: the union of its rows, in class order and earlier stages first (R73). -/
def kernelSlots (g : Seg) (l : Level) (k : Nat) : List Slot :=
  let rows := (bodyRows g l.bend 4096 l.bstart).1
  let N := l.count
  let all := (List.range l.st).flatMap fun j =>
    let m := k / l.ii
    if j ≤ m ∧ m - j < N then
      let row := nth (0, []) rows (k % l.ii + j * l.ii)
      row.2.map fun w => (w, row.1, m - j)
    else []
  let ordered := (List.range 8).flatMap fun c => all.filter fun x => wordClass x.1 == c
  let head := match ordered with | x :: _ => x.2.1 | [] => l.bstart
  ordered.zipIdx.map fun x => ⟨x.1.1, x.1.2.1, head, x.2, some (x.1.2.2, N, l.actual x.1.2.2)⟩

/-- The strides of L0 that kernel cycle m × II sees applied (R71). -/
def Level.kernelStride (l : Level) (m : Nat) : Nat :=
  let N := l.count
  if m = 0 then l.actual 0
  else if m < N then l.actual m - l.actual (m - 1)
  else if m = N then l.trip - l.actual (N - 1)
  else 0

/-- Kernel cycle `k` begins: strides unless the nest is being left, rotation, once even when a rollback returns to it; and its slots latched. -/
def State.beginKernel (s : State) (k : Nat) : State :=
  let l := s.lvl 0
  let latch := kernelSlots s.seg l k
  let head := match latch with | x :: _ => x.head | [] => l.bstart
  let s := s.modCtx fun c => { c with cur := ⟨0, head, head, 0, none⟩ }
  let s :=
    if k % l.ii = 0 ∧ !s.ctx.ctl.begun then
      let s := if s.ctx.leaving then s else s.strideNow (l.strideOf (l.kernelStride (k / l.ii)))
      ((s.writePrior .base (.bits ((s.ctx.regs.base + 991) % 992))).modCtl fun c => { c with begun := true }).priorDone
    else s
  s.modCtx fun c => { c with latch := latch, drain := false, yielding := false, claims := [] }

/-- A watch on issue matches the bundle's first slot (R333). -/
def Ctx.watchX (c : Ctx) (va : Nat) : Option Nat :=
  if c.sys.h then none
  else (List.range 4).find? fun w =>
    let x := tget 0 c.sys.watch w
    x.getLsbD 63 && x.getLsbD 60 && !x.getLsbD 58 && decide (wbits x 55 6 = va / 64)
/-- MODULO_KERNEL_CYCLE (R71): one kernel cycle issues, even when it is empty. -/
def execModuloKernelCycle (s : State) : Out :=
  .next (match s.ctx.ctl.kern with
    | none => s
    | some k =>
      if s.ctx.latch.isEmpty then
        let s := s.beginKernel k
        if s.ctx.latch.isEmpty then s.finishBundle else s
      else s)

end Sys2Proof.Machine
end

