-- ==== Sys2Proof/Machine/System.lean ====
section
/-! DEFINITION. The E slots: FMT, system registers, queries, traps, handler return and watches (R326 to R333). -/

namespace Sys2Proof.Machine

/-! ### FMT (R63, R327) -/

/-- FMT writes still in their shadow. -/
def State.fmtQueue (s : State) : List (Word × Nat) := s.ctx.regs.fmtq.filter fun e => decide (s.ctx.pipe.ser < e.2)
/-- FMTW (R327): the value applies from the fifth bundle issued after this one. -/
def execFmtw (h : Hd) (a : BitVec 6) (s : State) : Out :=
  slot h.q s fun s =>
    let v := s.rs a.toNat
    if s.undoFull [.fmt] then s.raise 0x0206
    else if fmtLegal v s.hasF0 then
      s.writeNow .fmt (.fmt s.fmt (s.fmtQueue ++ [(v, s.ctx.pipe.ser + 5)]))
    else s.raise 0x020C
/-- FMTR (R327). -/
def execFmtr (h : Hd) (d : BitVec 6) (s : State) : Out := slot h.q s fun s => s.resultS 1 d.toNat s.fmt

/-! ### System registers (R328, R329) -/

/-- The features that Torkel implements (R1, R329 FEAT0). -/
def feat0 : Word := 0x1FF
/-- A system register's value. PKG is the package number of the die's verified deployment record, which nothing ties to the package's place (DESIGN
CHOICE, log entry 68). -/
def State.sysReg (s : State) (n : Nat) : Word :=
  let y := s.ctx.sys
  let fl (i : Nat) : Word := (tget 0 y.flg i).setWidth 64
  match n with
  | 0x000 => BitVec.ofNat 64 s.sub
  | 0x001 => BitVec.ofNat 64 s.focus.core
  | 0x002 => BitVec.ofNat 64 s.focus.die
  | 0x003 => BitVec.ofNat 64 (nth 0 s.die.deploy 1 % 16)
  | 0x004 => BitVec.ofNat 64 s.die.reserve
  | 0x010 => feat0
  | 0x020 => fl 0
  | 0x021 => fl 1
  | 0x022 => fl 2
  | 0x023 => fl 3
  | 0x030 => y.fcode
  | 0x031 => y.faddr
  | 0x032 => y.fbundle
  | 0x033 => y.fslot
  | 0x034 => y.fresume
  | 0x035 => BitVec.ofNat 64 y.h.toNat
  | 0x036 => y.fscr0
  | 0x037 => y.fscr1
  | 0x040 => tget 0 y.watch 0
  | 0x041 => tget 0 y.watch 1
  | 0x042 => tget 0 y.watch 2
  | 0x043 => tget 0 y.watch 3
  | 0x048 => BitVec.ofNat 64 y.bke.toNat
  | _ => 0
/-- The writable bits of a watch register. -/
def watchBits : Word := 0xFCFFFFFFFFFFFFC0
/-- A system register written at a release in cycle `now` (R328): a flag that lands in that cycle stays set; a read-only one ignores it. -/
def Sys.write (y : Sys) (now n : Nat) (v : Word) : Sys :=
  let flags (i : Nat) : Sys := { y with flg := tset y.flg i (v.setWidth 6 ||| y.landed now i) }
  match n with
  | 0x020 => flags 0
  | 0x021 => flags 1
  | 0x022 => flags 2
  | 0x023 => flags 3
  | 0x036 => { y with fscr0 := v }
  | 0x037 => { y with fscr1 := v }
  | 0x040 => { y with watch := tset y.watch 0 (v &&& watchBits) }
  | 0x041 => { y with watch := tset y.watch 1 (v &&& watchBits) }
  | 0x042 => { y with watch := tset y.watch 2 (v &&& watchBits) }
  | 0x043 => { y with watch := tset y.watch 3 (v &&& watchBits) }
  | 0x048 => { y with bke := v.getLsbD 0 }
  | _ => y
/-- SYSRD (R328). -/
def execSysrd (h : Hd) (d : BitVec 6) (n : BitVec 12) (s : State) : Out :=
  slot h.q s fun s => s.resultS 1 d.toNat (s.sysReg n.toNat)
/-- A checkpoint bundle of an E slot: not in a format shadow (R326); `own` is a fault of the slot's own. -/
def State.eBundle (s : State) (e : Eff) (own : Option (Nat × Nat) := none) : State :=
  if s.holdFull then s.raise 0x0205 else if s.inShadow then s.raise 0x0207 else s.ckptBundle e own
/-- SYSWR (R328). -/
def execSyswr (h : Hd) (r : BitVec 6) (n : BitVec 12) (s : State) : Out :=
  slotOr h.q s State.ckptFull fun s => s.eBundle (.sysw n.toNat (s.rs r.toNat))
/-- WATCH (R333). -/
def execWatch (h : Hd) (w : BitVec 2) (a : BitVec 6) (s : State) : Out :=
  slotOr h.q s State.ckptFull fun s =>
    let v := wbits (s.rs (a.toNat + 1)) 7 2 * 2 ^ 58 + wbits (s.rs a.toNat) 55 6 * 2 ^ 6
    s.eBundle (.sysw (0x040 + w.toNat) (BitVec.ofNat 64 v))

/-! ### Queries (R330) -/

/-- ISAQ (R330). -/
def execIsaq (h : Hd) (d : BitVec 6) (sl : BitVec 3) (s : State) : Out :=
  slot h.q s fun s => s.resultS 1 d.toNat (match sl.toNat with | 0 => feat0 | 4 => 0x0300 | _ => 0)
/-- CYC (R330). -/
def execCyc (h : Hd) (d : BitVec 6) (s : State) : Out := slot h.q s fun s => s.resultS 1 d.toNat (BitVec.ofNat 64 s.cyc)

/-! ### Traps, breakpoints and handler return (R331, R332) -/

/-- TRAP (R331). -/
def execTrap (h : Hd) (c : BitVec 12) (s : State) : Out :=
  slotOr h.q s State.ckptFull fun s => s.eBundle (.trap 0x0801 c.toNat s.ctx.slotVa s.ctx.cur.pos)
/-- A BKPT blocks as a checkpoint bundle only with BKE = 1. -/
def State.bkptBlocks (s : State) : Bool := s.ctx.sys.bke && s.ckptFull
/-- BKPT (R331). -/
def execBkpt (h : Hd) (c : BitVec 12) (s : State) : Out :=
  slotOr h.q s State.bkptBlocks fun s =>
    if s.ctx.sys.bke then s.eBundle (.trap 0x0802 c.toNat s.ctx.slotVa s.ctx.cur.pos) else s
/-- ERET (R332). -/
def execEret (h : Hd) (s : State) : Out :=
  slotOr h.q s State.ckptFull fun s => s.eBundle .eret (if s.ctx.sys.h then none else some (0x020E, 0))

end Sys2Proof.Machine
end

