-- ==== Sys2Proof/Machine/Pipeline.lean ====
section
/-! DEFINITION. The pipeline of a context: landings, confirmation of checkpoints, release of withheld effects, the store queue, and
rollback (R61, R80 to R84, R157, R366, R367). -/

namespace Sys2Proof.Machine

/-! ### Empty pipelines (R66) -/

/-- An item that is a beat (R113). -/
def ItemKind.isResult : ItemKind → Bool
  | .beat .. | .drain .. | .scout .. | .shift .. => true
  | _ => false
/-- Every result that the context issued has landed and every beat has settled (R66), and no rollback awaits the array. -/
def Core.pipesEmpty (k : Core) (c : Nat) : Bool :=
  (k.ctx c).pipe.infl.isEmpty && !(k.arr.items.any fun i => i.ctx == c && i.kind.isResult) &&
  !(k.arr.cross.any fun x => x.ctx == c && x.kind == 1) && !(k.arr.exits.any fun e => e.ctx == c) &&
  (match k.arr.rest with | some (o, _) => o != c | none => true)

/-! ### Landings (R61, R62, R105) -/

/-- One result lands: its register, unless it discards writes, and its flags. A write that R368 leaves undefined lands a free value. -/
def Ctx.land (now draw : Nat) (c : Ctx) (l : Landing) : Ctx :=
  { c with
    regs := if l.reg.discards then c.regs else if c.pipe.lost.contains (l.ser, l.reg) then c.regs.lose draw l.reg else c.regs.put l.reg l.val
    sys := c.sys.orFlags now l.fl l.flags }
/-- A result whose cycle has come. -/
def Landing.isDue (now : Nat) (l : Landing) : Bool := decide (l.due ≤ now)
/-- Registers in which a result lands while one of an earlier bundle is in flight: earlier bundle, later bundle, register (R368). -/
def Pipe.clashes (p : Pipe) (now : Nat) : List (Nat × Nat × RegId) :=
  (p.infl.filter (Landing.isDue now)).flatMap fun l =>
    (p.infl.filter fun x => !x.isDue now && decide (x.reg = l.reg) && decide (x.ser < l.ser)).map fun x => (x.ser, l.ser, l.reg)
/-- Every result due lands, in landing order. -/
def Ctx.landDue (c : Ctx) (now : Nat) (draw : Nat := 0) : Ctx :=
  ((c.pipe.infl.filter (Landing.isDue now)).foldl (Ctx.land now draw) c).onPipe fun p => { p with
    infl := p.infl.filter fun l => !l.isDue now, clash := p.clash ++ c.pipe.clashes now }
/-- RESULT_LANDING (R61). -/
def execResultLanding (s : State) : Out := .next (s.modCtx fun c => c.landDue s.cyc s.draw)

/-! ### Release (R82, R140, R157) -/

/-- Entries of the store queue that have not entered the egress. -/
def Queues.unsent (q : Queues) : Nat := (q.stq.filter fun e => !e.sent).length
/-- An effect enters the store queue in `n` entries, if they fit in its 64. -/
def State.enqueue (s : State) (h : Held) (n : Nat) : Option State :=
  if 64 < s.ctx.q.unsent + n then none
  else some (s.modQ fun q => { q with
    nextId := q.nextId + 1
    stq := q.stq ++ (List.range n).map fun i => (⟨h.ord, s.root, q.nextId, i, h.eff, false⟩ : StEnt) })
/-- A fresh order number marks the time of a release. -/
def State.released (s : State) (f : Nat → Queues → Queues) : State := s.modQ fun q => { f q.nextId q with nextId := q.nextId + 1 }

/-- A withheld effect is released, or has no room yet; a sequence operation waits for the fences before it (R161, R204, R325). -/
def State.release (s : State) (h : Held) : Option State :=
  match h.eff with
  | .store .. | .atom .. | .packet .. => s.enqueue h 1
  | .scat num lanes => if lanes.isEmpty then some (s.modQ fun q => q.complete 1 num) else s.enqueue h lanes.length
  | .cmd num => some (s.released fun r q =>
      { q with cmds := q.cmds.map fun c => if c.num = num then { c with stage := 1, rel := r } else c })
  | .cbadv b n => some (s.modCb b fun x => { x with
      wp := if x.eng then s.free (2 ^ 51 + b) 32 else (x.wp + n) % 2 ^ 32, pendW := x.pendW - n, prog := true })
  | .coll num => some (s.released fun r q =>
      { q with colls := q.colls.map fun c => if c.num = num then { c with released := true, rel := r } else c })
  | .flagw id => some (s.released fun r q =>
      { q with flagws := q.flagws.map fun f => if f.id = id then { f with released := true, rel := r } else f })
  | .sysw n v => some ((s.modSys fun y => y.write s.cyc n v).waitDone 5 [])
  | .deal _ => match s.myRegion with
    | none => some s
    | some r =>
      let l : Loc := ⟨paPkg r.blk, r.home, 0⟩
      some ((s.modDieAt l.pkg l.die fun d => { d with dealq := d.dealq ++ [⟨s.focus, s.sub, s.root, h.ser, h.eff⟩] }).post l 0 .dealerRequest)
  | .seqop _ _ _ desc _ _ =>
    if s.ctx.heldBack h.ord s.ctx.q.nextId h.ord then none
    else match s.translateNow s.focus s.root desc 2 with
    | (s, .ok pa pte) =>
      match s.reach s.focus (leafFwd pte) pa 5 with
      | .wait => none
      | .lost code e => some ((s.logReach s.focus s.sub s.focus.core e).waitFault 4 code desc)
      | .at_ pa =>
        if 8 ≤ paStn pa then some (s.waitFault 4 0x0403 desc)
        else
          let l : Loc := ⟨paPkg pa, paStn pa, 0⟩
          some ((s.modDieAt l.pkg l.die fun d => { d with seqq := d.seqq ++ [⟨s.focus, s.sub, s.root, h.ser, h.eff⟩] }).post l 0 .sequenceUnitOperation)
    | (s, .fail code) => some (s.waitFault 4 code desc)
    | (_, .miss) => none
  | .gbar | .taskend | .trap .. | .eret => some s

/-- Confirmed effects are released in issue order, while they find room (R82). -/
def State.releaseAll (s : State) : Nat → State
  | 0 => s
  | n + 1 =>
    match s.ctx.pipe.held with
    | h :: t =>
      if h.rel then
        match s.release h with
        | some s' => (s'.modPipe fun p => { p with held := t }).releaseAll n
        | none => s
      else s
    | [] => s
/-- The head of the withhold buffer is confirmed and has room. -/
def State.releaseReady (s : State) : Bool :=
  match s.ctx.pipe.held with
  | h :: _ => h.rel && (s.release h).isSome
  | [] => false

/-! ### Confirmation (R80 to R83, R140) -/

/-- The oldest checkpoint, when every bundle up to it is past its horizon without a fault. -/
def Ctx.confirmDue (c : Ctx) (now : Nat) : Option Ckpt :=
  match c.pipe.cks with
  | k :: _ =>
    if k.cyc + 8 ≤ now && (match c.pipe.fault with | some f => decide (k.ser < f.ser) | none => true) then some k else none
  | [] => none

/-- A checkpoint confirms: undo entries and kept queue entries up to it are freed, RPC takes the recorded RP, and effects up to it
are confirmed. -/
def Ctx.confirm (c : Ctx) (k : Ckpt) : Ctx :=
  { c with
    regs := { c.regs with cb := k.rps.foldl (fun t e => tmod CBuf.reset t e.1 fun b => { b with rpc := e.2 }) c.regs.cb }
    pipe := { c.pipe with
      undo := c.pipe.undo.filter fun u => decide (k.ser < u.ser)
      cks := c.pipe.cks.filter fun x => x.ser != k.ser
      clash := c.pipe.clash.filter fun x => decide (k.ser < x.2.1)
      lost := c.pipe.lost.filter fun x => decide (k.ser < x.1) || c.pipe.infl.any fun l => l.ser == x.1 && decide (l.reg = x.2)
      held := c.pipe.held.map fun h => if h.ser ≤ k.ser then { h with rel := true } else h
      restart := k }
    q := { c.q with
      ldKept := c.q.ldKept.filter fun e => decide (k.ser < e.1)
      gKept := c.q.gKept.filter fun e => decide (k.ser < e.1)
      fiKept := c.q.fiKept.filter fun e => decide (k.ser < e.1) } }

/-! ### The store queue (R157, R160 to R163, R310) -/

/-- The first entry that has not entered the egress. -/
def Queues.nextStore (q : Queues) : Option StEnt := q.stq.find? fun e => !e.sent
/-- What orders an entry lets it go: fences, LDGA and ATOMX before it; for STGR, loads and stores before it at its scope; for ATOMX,
what it follows in the store queue at sys scope. -/
def Ctx.storeFree (c : Ctx) (e : StEnt) : Bool :=
  !c.heldBack e.id e.rel e.id &&
  match e.eff with
  | .store _ _ (some p) => c.q.loadsDone e.id && c.storesDone e.id p
  | .atom _ _ _ _ _ _ _ true => c.storesDone e.id 6
  | _ => true

/-- The address, data and permission of an entry; a fabric packet is translated already. -/
def StEnt.target (e : StEnt) : Nat × Nat :=
  match e.eff with
  | .store va .. => (va, 1)
  | .scat _ lanes => ((nth (0, []) lanes e.lane).1, 1)
  | .atom _ _ _ va .. => (va, 2)
  | _ => (0, 1)
/-- Where an entry goes. -/
def State.storeWhere (s : State) (e : StEnt) : State × Tr :=
  match e.eff with
  | .packet _ _ _ d _ => (s, .ok d.1 d.2)
  | _ => s.translateQ s.focus e.root e.target.1 e.target.2

/-- The virtual address that an entry was translated from. -/
def StEnt.va (e : StEnt) : Nat := match e.eff with | .packet _ _ ws .. => bits (nth 0 ws 0).toNat 71 16 | _ => e.target.1
/-- The packet of an entry at its physical address. FADDR is a flag's address in a STORELAST, and else what the program wrote (R174, R177). -/
def State.storePacket (s : State) (e : StEnt) (pa pte : Nat) : Packet :=
  let b := underLeaf { blankPacket with dest := pa, agent := s.focus.core, sctx := s.sub, id := idStore e.id e.lane } e.root e.va pte
  match e.eff with
  | .store _ data _ => { b with typ := 3, size := data.length, data := data }
  | .scat _ lanes => let d := (nth (0, []) lanes e.lane).2; { b with typ := 3, size := d.length, data := d }
  | .atom _ op ty _ v cmp _ _ =>
    { b with typ := 5, size := if ty = 0 ∨ ty = 2 ∨ ty = 4 then 4 else 8, aux := op * 8 + ty, data := leBytes 8 v.toNat ++ leBytes 8 cmp.toNat }
  | .packet _ _ ws _ f =>
    let z := (nth 0 ws 0).toNat
    let y := (nth 0 ws 1).toNat
    let n := bits z 15 8
    { b with
      typ := bits z 3 0, size := n, tag := bits z 103 88, faddr := if bits z 3 0 = 4 then f.1 else bits y 63 8, fval := bits y 127 64
      id := idPacket (32 * e.id), data := ((ws.drop 2).flatMap fun w => leBytes 16 w.toNat).take n }
  | _ => b

/-- Words of an outbound FIFO are free again once their packet has left (R177). -/
def State.foSent (s : State) (e : StEnt) : State :=
  match e.eff with
  | .packet port _ ws .. => s.setFo port { s.fo port with held := (s.fo port).held - ws.length }
  | _ => s

/-- The walker can take one more walk for a miss, or the translation is known. -/
def State.canWalk (s : State) (root va : Nat) : Bool :=
  match s.lookup s.focus root (va % 2 ^ 56) with
  | .miss => s.walkFree s.focus root (va % 2 ^ 56)
  | _ => true
/-- The egress takes one more request for an entry's station. -/
def State.storeRoom (s : State) (e : StEnt) : Bool :=
  match e.eff with
  | .packet _ _ _ d _ => s.canSend s.focus s.focus.core d.1
  | _ => match s.lookup s.focus e.root (e.target.1 % 2 ^ 56) with
    | .ok pa _ => s.canSend s.focus s.focus.core pa
    | _ => true
/-- The next entry that may move on: it enters the egress, fails its translation, or asks the walker. -/
def State.storeReady (s : State) : Option StEnt :=
  match s.ctx.q.nextStore with
  | some e =>
    if s.ctx.storeFree e && s.storeRoom e && (match e.eff with | .packet .. => true | _ => s.canWalk e.root e.target.1) then some e else none
  | none => none

/-- The packet belongs to a transfer that failed at its eighth NACK (R385). -/
def Queues.withdrawn (q : Queues) (pk : Packet) : Bool :=
  inTransfer pk && (pk.typ == 3 || pk.typ == 4) && q.cut.contains (dieKey (paPkg pk.dest) (paStn pk.dest), pk.tag)
/-- Such a packet is not sent and fails with 0x0401; with its STORELAST the transfer is over. -/
def State.withdraw (s : State) (e : StEnt) (pk : Packet) : State :=
  let s := if pk.typ = 4 then s.modQ fun q => { q with cut := q.cut.erase (dieKey (paPkg pk.dest) (paStn pk.dest), pk.tag) } else s
  s.storeBack e.id e.lane 0x0401 e.va []
/-- The next entry enters the egress, fails its translation, or is withdrawn (R372, R385). -/
def State.storeSend (s : State) : State :=
  match s.storeReady with
  | none => s
  | some e =>
    match s.storeWhere e with
    | (s, .miss) => s
    | (s, .fail code) => (s.storeBack e.id e.lane code e.target.1 []).releaseAll 256
    | (s, .ok pa pte) =>
      let pk := s.storePacket e pa pte
      if s.ctx.q.withdrawn pk then ((s.foSent e).withdraw e pk).releaseAll 256
      else
        let s := s.modQ fun q => { q with stq := q.stq.map fun x => if x.id = e.id ∧ x.lane = e.lane then { x with sent := true } else x }
        (((s.foSent e).request s.focus pk).releaseAll 256).sendLoads
/-- STORE_QUEUE_SEND (R157). -/
def execStoreQueueSend (s : State) : Out := .next s.storeSend

/-! ### Rollback (R366, R367) -/

/-- Old values return to their registers, newest first. -/
def Regs.unwind (r : Regs) (l : List Undo) : Regs := l.foldl (fun r u => r.put u.reg u.old) r

/-- The queues as the restart checkpoint left them (R366 steps 4 to 6). `held` is what is still withheld. -/
def Queues.rollback (q : Queues) (k : Ckpt) (held : List Held) : Queues :=
  let old (ser : Nat) : Bool := decide (ser ≤ k.ser)
  let ldBack := (q.ldKept.filter fun e => !old e.1).map (·.2)
  let gBack := (q.gKept.filter fun e => !old e.1).map (·.2)
  let fiBack := q.fiKept.filter fun e => !old e.1
  let gone := (ldBack ++ q.ldq ++ q.dropped).filter fun e => !old e.ser
  let has (t : Eff → Bool) : Bool := held.any fun h => t h.eff
  let num (c : Nat) : Nat := tget 0 k.tl c
  let fis := (List.range 2).map fun p =>
    (p, (⟨(((fiBack.filter fun e => e.2.1 == p).map fun e => e.2.2) ++ (tget Fi.reset q.fi p).words).filter fun w =>
      match w.ser with | some n => old n | none => true⟩ : Fi))
  { q with
    ldq := (ldBack ++ q.ldq).filter fun e => old e.ser
    gdq := (gBack ++ q.gdq).filter fun e => old e.ser
    lq := q.lq.filter fun i => old i.ser
    ldKept := q.ldKept.filter fun e => old e.1
    gKept := q.gKept.filter fun e => old e.1
    fiKept := q.fiKept.filter fun e => old e.1
    dropped := q.dropped.filter fun e => !(ldBack.any fun x => x.id == e.id)
    gDropped := q.gDropped.filter fun e => !(gBack.any fun x => x.id == e.id)
    fi := fis
    fiOut := q.fiOut.filter fun e => old e.ser
    fo := (List.range 2).map fun p =>
      let f := tget Fo.reset k.fos p
      let words (e : Eff) : Nat := match e with | .packet x _ ws .. => if x = p then ws.length else 0 | _ => 0
      let asked := (q.lq.filter fun i => old i.ser && match i.kind with | .fi x .. => x == p | _ => false).length
      (p, { f with held := f.build.length + 2 * asked + (held.map fun h => words h.eff).sum +
        ((q.stq.filter fun e => !e.sent).map fun e => words e.eff).sum })
    cmds := q.cmds.filter fun c => decide (1 ≤ c.stage) || has fun e => match e with | .cmd n => n == c.num | _ => false
    colls := q.colls.filter fun c => c.released || has fun e => match e with | .coll n => n == c.num | _ => false
    flagws := q.flagws.filter fun f => f.released || has fun e => match e with | .flagw n => n == f.id | _ => false
    tl := k.tl
    tlOut := q.tlOut.filter fun e => decide (e.2 ≤ num e.1)
    failed := q.failed.filter fun d => decide (d.num ≤ num d.ctr)
    deferred := q.deferred.filter fun d =>
      (decide (5 ≤ d.ctr) || decide (d.num ≤ num d.ctr)) && !(d.ctr == 6 && gone.any fun x => x.id == d.ord) }

/-- The handles with what is still withheld or not yet in effect for them (R140, R366 step 4). -/
def rollHandles (cb : Tab CBuf) (held : List Held) (cmds : List Cmd) : Tab CBuf :=
  cb.map fun e => (e.1, { e.2 with
    pendW := (held.map fun h => match h.eff with | .cbadv b n => if b = e.1 then n else 0 | _ => 0).sum
    pendSet := (cmds.filter fun c => decide (c.kind = 4) && c.cb == e.1).length })

/-- The writes that clash across the restart checkpoint: one after it landed while one before it was in flight, so that the register is undefined
after the replay (R368). -/
def Pipe.spoiled (p : Pipe) : List (Nat × Nat × RegId) :=
  p.clash.filter fun x => decide (x.1 ≤ p.restart.ser) && decide (p.restart.ser < x.2.1)
/-- The context returns to its restart checkpoint (R366 steps 1 to 7); `draw` numbers the values that R368 leaves undefined. -/
def Ctx.rollback (c : Ctx) (now : Nat) (draw : Nat := 0) : Ctx :=
  let k := c.pipe.restart
  let old (ser : Nat) : Bool := decide (ser ≤ k.ser)
  let held := c.pipe.held.filter fun h => old h.ser
  let q := c.q.rollback k held
  let regs := c.pipe.spoiled.foldl (fun r x => r.lose draw x.2.2) (c.regs.unwind (c.pipe.undo.filter fun u => !old u.ser))
  { c with
    ctl := k.ctl
    latch := []
    claims := []
    drain := false
    yielding := false
    regs := { regs with cb := rollHandles regs.cb held q.cmds, gen := regs.gen.map fun g => (g.1, { g.2 with look := [] }) }
    pipe := { c.pipe with
      ser := k.ser + 1
      horizon := now
      infl := c.pipe.infl.filter fun l => old l.ser
      clash := []
      lost := c.pipe.lost ++ c.pipe.spoiled.flatMap fun x => [(x.1, x.2.2), (x.2.1, x.2.2)]
      undo := c.pipe.undo.filter fun u => old u.ser
      held := held
      cks := []
      fault := none
      wait := []
      waitf := none
      tl0 := k.tl }
    q := q }

/-- The rollback of a context of a core, with the array (R366 step 8). -/
def Core.rollback (k : Core) (c : Nat) (draw : Nat := 0) : Core :=
  let r := (k.ctx c).pipe.restart
  { k.modCtx c fun x => x.rollback k.cycle draw with arr := k.arr.rollback c r.ser r.owned r.releasing }
/-- The rollback of the context in focus. -/
def State.rollback (s : State) : State := s.modCore fun k => k.rollback s.sub s.draw
/-- Cycles that the undo log takes to unwind (R366 step 2). -/
def Ctx.unwindCycles (c : Ctx) : Nat := ((c.pipe.undo.filter fun u => decide (c.pipe.restart.ser < u.ser)).length + 3) / 4

end Sys2Proof.Machine
end

