-- ==== Sys2Proof/Machine/Bundle.lean ====
section
/-! DEFINITION. Segments and the next bundle of a context: fetch, header checks, entry, loop entry, decode (R69, R71, R77, R78, R207, R220, R221, R417). -/

namespace Sys2Proof.Machine

/-! ### Segment fetch (R77, R78, R221) -/

/-- Code bytes by virtual address, with execute permission. -/
def State.codeRead (s : State) (l : Loc) (c root va n : Nat) : State × Eng (List Byte) :=
  match s.translateNow l root va 3 with
  | (s, .fail code) => (s, .failed code va)
  | (s, .miss) => (s, .wait)
  | (s, .ok pa pte) =>
    match s.reach l (leafFwd pte) pa 5 with
    | .wait => (s, .wait)
    | .lost code e => (s.logReach l c l.core e, .failed code va)
    | .at_ pa =>
      let s := s.settleLines pa n
      let pk := engPacket l c l.core 1 pa n (pteEnc pte) (pteIchk pte)
      match s.homeRead pk n with
      | .ok (s, b) => (s, .done b)
      | .error a => (s.logAux pk a, .failed (auxCode a) va)
/-- Code bytes read in lines of 64. -/
def State.codeLines (s : State) (l : Loc) (c root : Nat) : Nat → Nat → Nat → State × Eng (List Byte)
  | 0, _, _ => (s, .done [])
  | k + 1, va, n =>
    if n = 0 then (s, .done [])
    else
      match s.codeRead l c root va (min n 64) with
      | (s, .done b) => match s.codeLines l c root k (va + 64) (n - 64) with
        | (s, .done r) => (s, .done (b ++ r))
        | r => r
      | r => r

/-- A little-endian field of bytes. -/
def fieldOf (b : List Byte) (o n : Nat) : Nat := leNat ((b.drop o).take n)
/-- The header passes the checks of R221. -/
def headerOk (b : List Byte) : Bool :=
  let major := fieldOf b 5 1
  let feats := fieldOf b 8 16
  let len := fieldOf b 24 4
  decide (fieldOf b 0 4 = 0x33544345) && (major == 1 || major == 2 || (major == 3 && fieldOf b 4 1 == 0)) &&
  decide (feats < 2 ^ 9) && (decide (3 ≤ major) || feats == 0) &&
  decide (len % 4 = 0) && decide (4 ≤ len) && decide (len ≤ 16320) && decide (fieldOf b 28 4 < len / 4) &&
  decide (fieldOf b 6 2 = 0) && decide (fieldOf b 48 1 < 128) && decide (fieldOf b 49 1 < 16) && decide (fieldOf b 50 14 = 0)
/-- Words of 4 bytes. -/
def codeWords : Nat → List Byte → List Nat
  | 0, _ => []
  | n + 1, b => leNat (b.take 4) :: codeWords n (b.drop 4)

/-- How a segment fetch ends: it waits for a held page, fails with a code and the entry bundle's address, or gives the segment. -/
inductive Fetched where
  | wait
  | failed (code entry : Nat)
  | got (g : Seg)

/-- A segment is fetched and its header checked (R220, R221). -/
def State.fetchSeg (s : State) (l : Loc) (c root va : Nat) : State × Fetched :=
  match s.codeRead l c root va 64 with
  | (s, .wait) => (s, .wait)
  | (s, .failed code _) => (s, .failed code (codeVa va 0))
  | (s, .done h) =>
    if !headerOk h then (s, .failed 0x0503 va)
    else
      let len := fieldOf h 24 4
      match s.codeLines l c root 256 (va + 64) len with
      | (s, .wait) => (s, .wait)
      | (s, .failed code _) => (s, .failed code (codeVa va (fieldOf h 28 4)))
      | (s, .done code) =>
        (s, .got ⟨va, fieldOf h 5 1, fieldOf h 8 16, fieldOf h 28 4, fieldOf h 32 8 % 2 ^ 56, fieldOf h 40 8 % 2 ^ 56,
          fieldOf h 48 1, fieldOf h 49 1, codeWords (len / 4) code⟩)

/-- The fault of a bundle that cannot issue, found before it issues (R364, R417). -/
def State.foundBefore (s : State) (code slot bundle faddr : Nat) : State :=
  s.modPipe fun p => match p.fault with
    | some _ => p
    | none => { p with fault := some ⟨code, p.ser, max s.cyc p.horizon, slot, bundle, faddr, none, none⟩ }

/-- SEGMENT_FETCH_COMPLETE (R78): the demanded segment is in the idle half, or its failure is found (R392, R417). -/
def execSegmentFetchComplete (s : State) : Out :=
  .next (match s.ctx.fetch with
    | some (va, false) =>
      match s.fetchSeg s.focus s.sub s.root va with
      | (s, .wait) => s.post s.focus s.sub .segmentFetchComplete
      | (s, .failed code entry) =>
        let s := s.modCtx fun c => { c with fetch := none }
        if s.ctx.ctl.seg = va ∧ s.ctx.bind.isSome then s.foundBefore code 0 entry va else s
      | (s, .got g) => s.modCtx fun c => { c with fetch := none, idle := some g, pre := none }
    | _ => s)
/-- SEGMENT_PREFETCH_COMPLETE (R77): the idle half is filled; a failure shows only when issue reaches the segment (R417). -/
def execSegmentPrefetchComplete (s : State) : Out :=
  .next (match s.ctx.fetch with
    | some (va, true) =>
      match s.fetchSeg s.focus s.sub s.root va with
      | (s, .wait) => s.post s.focus s.sub .segmentPrefetchComplete
      | (s, .failed ..) => s.modCtx fun c => { c with fetch := none }
      | (s, .got g) => s.modCtx fun c => { c with fetch := none, idle := some g, pre := none }
    | _ => s)

/-! ### Entering a segment (R78) -/

/-- What issue finds when it reaches its segment. -/
inductive Need where
  | here
  | swap
  | fetch
  | wait
  deriving DecidableEq, Repr

/-- A half holds a segment. -/
def holds (h : Option Seg) (va : Nat) : Bool := match h with | some g => g.va == va | none => false
def Ctx.segNeed (c : Ctx) : Need :=
  let va := c.ctl.seg
  if !c.ctl.entry && holds c.half va then .here
  else if (match c.fetch with | some (x, _) => x == va | none => false) then .wait
  else if holds c.idle va && c.pre.isNone then .swap
  else if holds c.half va then .here
  else .fetch

/-- A preload of a bank group that the handler's header does not leave free is discarded, to be copied again (R397). -/
def State.handlerPreload (s : State) (g : Seg) : State :=
  match s.ctx.preBank with
  | some (blk, n, m) =>
    let kept := match s.region? blk with | some r => g.preload.testBit (r.plgrp % 4) | none => true
    if !s.ctx.sys.h || kept then s
    else
      let t := s.modCtx fun c => { c with preBank := some (blk, 0, m) }
      if n < m then t else t.post s.focus s.sub (.preload blk)
  | none => s
/-- The executing segment begins: its entry offset, and the prefetch of its primary next into the other half (R77, R78). -/
def State.beginSeg (s : State) (g : Seg) (other : Option Seg) : State :=
  let s := (s.handlerPreload g).modCtx fun c => { c with
    half := some g, idle := if g.next = 0 then other else none, pre := if g.next = 0 then c.pre else none
    ctl := if c.ctl.entry then { c.ctl with off := g.entry, entry := false } else c.ctl }
  if g.next = 0 then s else s.startFetch g.next true

/-! ### Loop entry (R69, R71, R74) -/

/-- Level `j` exits without an iteration: issue goes on behind its BEND, outside every body that ends there, and with the outermost level
the nest ends (R68, R69). -/
def State.skipLevel (s : State) (j : Nat) (l : Level) : State :=
  let next := l.bend + s.seg.bundleLen l.bend
  s.modCtx fun c => c.onCtl fun k =>
    if j + 1 = k.depth then { k.endNest with off := next } else { k with off := next, inside := stillInside c.regs k.inside next }
/-- A level's IDX as it enters (R69), or the iteration that issue goes on to while the nest is being left (R75). -/
def State.enterIdx (s : State) (j i : Nat) : State :=
  if s.ctx.leaving then s.modCtl fun c => { c with ahead := c.ahead ++ [(j, i)] }
  else if (s.lvl j).idx = i then s else s.writePrior (.lvl j) (.lvl { s.lvl j with idx := i })
/-- Strides of a level as it enters; none while the nest is being left (R74, R75). -/
def State.enterStrides (s : State) (l : Level) (d : Nat) : State := if s.ctx.leaving then s else s.strideNow (l.strideOf d)
/-- Level `j` enters; a level without iterations is skipped, a gated or modulo L0 then with its TRIP strides (R69, R71, R74). -/
def State.enterLevel (s : State) (j : Nat) : State :=
  let l := s.lvl j
  let inside (s : State) : State := s.modCtl fun c => { c with inside := j :: c.inside }
  if j = 0 ∧ (l.modulo || l.tiled) then
    if l.count = 0 then ((s.enterIdx j 0).enterStrides l l.trip).skipLevel j l
    else if l.modulo then (inside (s.enterIdx j 0)).modCtl fun c => { c with kern := some 0, begun := false }
    else inside ((s.enterIdx 0 (l.actual 0)).enterStrides l (l.actual 0))
  else if l.trip = 0 then (s.enterIdx j 0).skipLevel j l
  else inside (s.enterIdx j 0)

/-! ### The next bundle -/

/-- What a context's next bundle is: it waits for a fetch; a fetch begins; a fault is found; a kernel cycle; or a bundle. -/
inductive Prep where
  | wait
  | turn (s : State)
  | fault (s : State)
  | kernel (s : State)
  | bundle (s : State)

/-- A fault found while issue settles. -/
def State.found (s : State) : Bool := s.ctx.pipe.fault.isSome

/-- The instruction is a transfer with delay bundles (R64). -/
def Instr.hasDelays : Instr → Bool
  | .br .. | .brk .. | .call .. | .ret .. | .seg .. | .lpbrk .. => true
  | _ => false
/-- The words behind the last stop bit before the end of a code: its last bundle. -/
def lastBundle (code : List Nat) : List Nat :=
  (code.foldl (fun (b : List Nat × Bool) w => ((if b.2 then [] else b.1) ++ [w], w.testBit 31)) ([], true)).1
/-- The segment's last bundle is a control transfer (R78). -/
def Seg.endsInTransfer (g : Seg) : Bool :=
  (lastBundle g.code).any fun w => match instrOf w with | some i => Instr.hasDelays i | none => false

/-- Issue settles on its next bundle: segment entry, trailing strides, continuation, loop entry. -/
def State.settle (s : State) : Nat → Prep
  | 0 => .wait
  | n + 1 =>
    let c := s.ctx
    match c.ctl.bad with
    | some va => .fault (s.foundBefore 0x0101 0 va 0)
    | none =>
      match c.segNeed with
      | .wait => .wait
      | .fetch => .turn (s.startFetch c.ctl.seg false)
      | .swap => (s.beginSeg (c.idle.getD default) c.half).settle n
      | .here =>
        if c.ctl.entry then (s.beginSeg s.seg c.idle).settle n
        else
          let s := s.modCtx fun c => { c with cur := ⟨0, c.ctl.off, c.ctl.off, 0, none⟩ }
          if c.ctl.tail ≠ 0 then
            let s := ((s.strideNow ((s.lvl 0).strideOf c.ctl.tail)).modCtl fun k => { k with tail := 0 }).priorDone
            if s.found then .fault s else s.settle n
          else if s.seg.code.length ≤ c.ctl.off then
            if s.seg.next = 0 ∨ s.seg.endsInTransfer then .fault (s.foundBefore 0x0101 0 c.bundleVa 0)
            else (s.toSegment s.seg.next).settle n
          else match c.ctl.kern with
            | some _ => .kernel s
            | none => match entering c.regs c.ctl.off c.ctl.inside c.ctl.depth with
              | some j =>
                let s := (s.enterLevel j).priorDone
                if s.found then .fault s else s.settle n
              | none => .bundle s

/-- The address of the next kernel cycle's first slot. -/
def State.kernelVa (s : State) : Nat :=
  codeVa s.ctx.ctl.seg (match kernelSlots s.seg (s.lvl 0) (s.ctx.ctl.kern.getD 0) with | x :: _ => x.head | [] => (s.lvl 0).bstart)
/-- The address of the bundle that issue settles on (R357). -/
def State.resumeVa (s : State) : Nat :=
  match s.settle 64 with
  | .bundle t => t.ctx.bundleVa
  | .kernel t => t.kernelVa
  | .fault t => (t.ctx.pipe.fault.map (·.bundle)).getD t.ctx.bundleVa
  | .turn t =>
    if t.ctx.ctl.entry then
      match t.codeRead t.focus t.sub t.root t.ctx.ctl.seg 64 with
      | (_, .done h) => codeVa t.ctx.ctl.seg (fieldOf h 28 4)
      | _ => codeVa t.ctx.ctl.seg 0
    else t.ctx.bundleVa
  | .wait => s.ctx.bundleVa

/-- The bundle at a settled offset is decoded: its slots are latched, or its fault is found (R57, R207). -/
def State.latchBundle (s : State) : Prep :=
  let c := s.ctx
  let off := c.ctl.off
  match s.seg.bundle off with
  | none => .fault (s.foundBefore 0x0101 0 c.bundleVa 0)
  | some (ws, stops) =>
    let enclosed := (innermost c.regs off c.ctl.depth 0).isSome
    let bend := (List.range c.ctl.depth).any fun j => decide ((s.lvl j).bend = off)
    let (delay, bendBad) := match c.ctl.xfer with | some x => (true, !x.bendOk && bend) | none => (false, false)
    match bundleFault s.seg enclosed delay bendBad stops ws with
    | some (code, slot) => .fault (s.foundBefore code slot c.bundleVa 0)
    | none =>
      .bundle (s.modCtx fun c => { c with
        latch := ws.zipIdx.map fun x => ⟨x.1, off, off, x.2, none⟩
        drain := false, yielding := false, claims := [] })

/-- A kernel cycle that is a delay bundle holds no transfer, and no row at an active BEND where that counts as one (R64, R76). -/
def State.kernelFault (s : State) : Bool :=
  match s.ctx.ctl.xfer, s.ctx.ctl.kern with
  | some x, some k =>
    let atBend (off : Nat) : Bool := (List.range s.ctx.ctl.depth).any fun j => decide ((s.lvl j).bend = off)
    (kernelSlots s.seg (s.lvl 0) k).any fun sl =>
      (match instrOf sl.word with | some i => Instr.isTransfer i | none => false) || (!x.bendOk && atBend sl.off)
  | _, _ => false

/-- The next bundle of the context in focus. -/
def State.prep (s : State) : Prep :=
  match s.settle 64 with
  | .bundle s => s.latchBundle
  | .kernel s => if s.kernelFault then .fault (s.foundBefore 0x0105 0 s.kernelVa 0) else .kernel s
  | p => p

end Sys2Proof.Machine
end

