-- ==== Sys2Proof/Machine/Regions.lean ====
section
/-! DEFINITION. Regions: the block, launch, commands, placement, narrowing, failure, lost gang members and deals (R38 to R48, R52, R54, R55, R359,
R391, R396, R397). -/

namespace Sys2Proof.Machine

/-! ### The tree (R38 to R41) -/

/-- The parent of a region in the launch that it belongs to: a block launched anew is no parent of the regions of an earlier launch (R40). -/
def State.parentOf (s : State) (r : Region) : Option Region :=
  if r.parent = 0 then none
  else match s.region? r.parent with
  | some p => if p.tree = r.tree then some p else none
  | none => none
/-- A region and its ancestors, at most `n` of them. -/
def State.chain (s : State) : Nat → Region → List Region
  | 0, r => [r]
  | n + 1, r => r :: (match s.parentOf r with | none => [] | some p => s.chain n p)
def State.ups (s : State) (blk : Nat) : List Region := match s.region? blk with | none => [] | some r => s.chain s.regions.length r
/-- A region and its descendants. -/
def State.below (s : State) (blk : Nat) : List Region := s.regions.filter fun r => (s.ups r.blk).any fun x => x.blk == blk
/-- The children of a region. -/
def State.kids (s : State) (r : Region) : List Region := s.regions.filter fun k => k.parent == r.blk && k.tree == r.tree
/-- DONE or FAULTED. -/
def Region.final (r : Region) : Bool := r.state == 4 || r.state == 5
/-- The die whose scheduler and dealer serve a region (R48). -/
def Region.homeLoc (r : Region) : Loc := ⟨paPkg r.blk, r.home, 0⟩
/-- The lowest die of a mask. -/
def lowDie (m : Nat) : Nat := ((List.range 8).find? fun d => m.testBit d).getD 0
/-- Dies of a region's DIEMASK. -/
def Region.dies (r : Region) : List Nat := (List.range 8).filter fun d => r.diemask.testBit d

/-- STATE, NEXT, ENDED and USEDCYC are written back to the block (R41). -/
def State.writeBack (s : State) (blk : Nat) : State :=
  match s.region? blk with
  | none => s
  | some r =>
    (s.unitPut r.homeLoc 44 (blk + 31) (leBytes 1 r.state)).unitPut r.homeLoc 44 (blk + 144)
      (leBytes 8 r.next ++ leBytes 8 r.ended ++ leBytes 8 r.used)
/-- A state change with its write-back. -/
def State.setState (s : State) (blk st : Nat) : State := (s.modRegion blk fun r => { r with state := st }).writeBack blk
/-- A WAITING inner region whose children are all DRAINING, DONE or FAULTED is DRAINING (R41). -/
def State.drainOne (s : State) (p : Region) : State :=
  if p.kind = 1 ∧ p.state = 1 ∧ (s.kids p).all (fun k => k.state == 3 || k.final) then s.setState p.blk 3 else s
/-- What a region's state makes of its ancestors (R41). Until an inner region drains it is WAITING: contexts are bound to leaves and gangs alone
(DESIGN CHOICE, log entry 63). -/
def State.drainUp (s : State) : Nat → Nat → State
  | 0, _ => s
  | n + 1, blk =>
    match s.region? blk with
    | none => s
    | some r =>
      match s.parentOf r with
      | none => s
      | some p => (s.drainOne p).drainUp n p.blk
/-- A state change, and what it makes of the ancestors. -/
def State.stateTo (s : State) (blk st : Nat) : State := let s := s.setState blk st; s.drainUp s.regions.length blk

/-- One entry of the error log of a die, by its scheduler (R390, R391). -/
def State.logRegion (s : State) (p d code w2 blk : Nat) : State := s.logError p d code p d 0 44 0 w2 blk

/-- The completion flag is written (R43, R360): none when its page is held, or its translation waits for a walker, and the write must wait. A
failure is logged. -/
def State.flagWrite (s : State) (r : Region) (v : Word) : Option State :=
  if r.cflag = 0 then some s
  else
    let bad (s : State) : State := s.logRegion (paPkg r.blk) (lowDie r.diemask) 0x0404 r.cflag r.blk
    match s.translateNow { r.homeLoc with core := 20 } r.ptroot r.cflag 1 with
    | (s, .fail _) => some (bad s)
    | (_, .miss) => none
    | (s, .ok pa pte) =>
      match s.engPut r.homeLoc 0 44 (leafFwd pte) r.cflag pa (pteEnc pte) (leBytes 8 v.toNat) with
      | (s, .done _) => some s
      | (s, .failed ..) => some (bad s)
      | (_, .wait) => none
/-- The flag value of a failed region. -/
def Region.flipped (r : Region) : Word := r.cval ^^^ 0x8000000000000000

/-! ### Cores (R28, R44, R45, R407) -/

/-- The core that a retirement under way names. -/
def Die.retiring (d : Die) : Option Nat :=
  if d.regs.svcbusy && wbits d.regs.svccmd 63 60 == 1 then some (wbits d.regs.svccmd 7 0) else none
/-- A core of a die that can be bound: enabled, not retired or retiring. -/
def State.usable (s : State) (p d c : Nat) : Bool :=
  let x := s.dieAt p d
  (s.coreAt ⟨p, d, c⟩).on && !x.regs.retired.testBit c && !(x.retiring == some c)
/-- Enabled cores, lowest first. -/
def State.enabled (s : State) (p d : Nat) : List Nat := (List.range 20).filter (s.usable p d)
/-- The reserved cores: the highest-numbered enabled ones (R45). -/
def State.reserved (s : State) (p d : Nat) : List Nat :=
  let e := s.enabled p d
  e.drop (e.length - (s.dieAt p d).reserve)
/-- The live roots that a die has launched: a block launched anew at another die counts there (R42, R45). -/
def State.liveRoots (s : State) (p d : Nat) : List Region :=
  ((s.dieAt p d).roots.filterMap s.region?).filter fun r => !r.final && r.parent == 0 && r.launch == dieKey p d
/-- RESERVE is the largest RESV of the live roots, at most 4 (R45). -/
def State.setReserve (s : State) (p d : Nat) : State :=
  let top := (s.liveRoots p d).foldl (fun m r => max m r.resv) 0
  s.modDieAt p d fun x => { x with reserve := min 4 top }
/-- Contexts 0 to n − 1 of a core are free. -/
def State.coreFree (s : State) (l : Loc) (n : Nat) : Bool := (List.range n).all fun c => (s.ctxAt l c).bind.isNone
/-- The die's scheduler binds: it is READY, not draining and not bypassed. -/
def State.binds (s : State) (p d : Nat) : Bool :=
  let x := s.dieAt p d
  decide (x.boot = .ready) && !x.draining && !x.bypassed
/-- Free cores of a die for a region, in the order in which it takes them: the reserved ones for an urgent leaf (R45), and the lowest-numbered first
(DESIGN CHOICE, log entry 73). -/
def State.freeCores (s : State) (r : Region) (d : Nat) : List Nat :=
  let p := paPkg r.blk
  if !s.binds p d then []
  else
    let res := s.reserved p d
    let free (c : Nat) : Bool := s.coreFree ⟨p, d, c⟩ r.ctxpc
    (if r.urgent && r.kind == 2 then res.filter free else []) ++ ((s.enabled p d).filter fun c => !res.contains c).filter free

/-! ### Regions that seek cores (R39, R44) -/

/-- Cores that a region and its descendants hold. -/
def State.coresHeld (s : State) (blk : Nat) : Nat := ((s.below blk).map fun r => r.groups.length).sum
/-- Budgets of the region and its ancestors allow `n` more cores (R39). -/
def State.budgetOk (s : State) (r : Region) (n : Nat) : Bool :=
  (s.ups r.blk).all fun x => decide (s.coresHeld x.blk + n ≤ x.bcores) && decide (x.used < x.bcycles)
/-- A saved context of the region waits for a core (R54): not while its suspension is under way. -/
def Region.waitsSaved (r : Region) : Bool := !r.saved.isEmpty && !r.suspending && decide (1 ≤ r.state) && decide (r.state ≤ 3)
/-- The saved contexts of a region by core group, the group saved earliest first (R54). -/
def Region.savedGroups (r : Region) : List (List Saved) :=
  let mates (v : Saved) : List Saved := r.saved.filter fun x => x.era == v.era && decide (x.group.l = v.group.l)
  (r.saved.filter fun v => match mates v with | x :: _ => x.slot == v.slot | [] => false).map mates
/-- The saved groups that are placed next: those of a gang together, else the one saved earliest (R54, R55). -/
def Region.savedNext (r : Region) : List (List Saved) := if r.kind = 3 then r.savedGroups else r.savedGroups.take 1
/-- The region wants cores: for a leaf one, for a gang all its members, unless they have all ended (R55). -/
def State.wants (s : State) (r : Region) : Option Nat :=
  if r.suspending || r.rerun || !r.saved.isEmpty then none
  else if r.kind = 2 ∧ (r.state = 1 ∨ r.state = 2) ∧ r.next < r.ntask ∧ s.budgetOk r 1 then some 1
  else if r.kind = 3 ∧ r.state = 1 ∧ r.groups.isEmpty ∧ r.ended < r.ntask ∧ s.budgetOk r r.ntask then some r.ntask
  else none
/-- The cores that a region waits for: those of its saved groups, or those that it wants (R44, R47, R54). -/
def State.needs (s : State) (r : Region) : Option Nat :=
  if r.waitsSaved then (let n := r.savedNext.length; if s.budgetOk r n then some n else none) else s.wants r
/-- The free cores that a region may take, as seen from a die: its own for a leaf, those of the whole DIEMASK for a gang. -/
def State.offers (s : State) (r : Region) (d : Nat) : List Loc :=
  if r.kind = 3 then r.dies.flatMap fun x => (s.freeCores r x).map fun c => (⟨paPkg r.blk, x, c⟩ : Loc)
  else (s.freeCores r d).map fun c => ⟨paPkg r.blk, d, c⟩
/-- The regions of a package that wait for cores of a die. -/
def State.waiters (s : State) (p d : Nat) : List Region :=
  s.regions.filter fun r => paPkg r.blk == p && r.diemask.testBit d && (s.needs r).isSome
/-- The regions of a package that a die's scheduler may bind. -/
def State.seekers (s : State) (p d : Nat) : List Region :=
  s.regions.filter fun r => paPkg r.blk == p && r.diemask.testBit d && (s.wants r).isSome

/-- The first number past those of a die's eligible regions and its pointers. -/
def Die.nextOrder (x : Die) : Nat :=
  max (x.elig.foldl (fun m e => max m (e.2 + 1)) 0) (x.rr.foldl (fun m e => max m e.2) 0)
/-- The place of a region in the order in which a die's regions became eligible (R44, log entry 30). -/
def State.orderOf (s : State) (p d : Nat) (r : Region) : Nat :=
  let x := s.dieAt p d
  match x.elig.find? fun e => e.1 == r.blk with
  | some e => e.2
  | none => x.nextOrder + s.regions.findIdx fun y => y.blk == r.blk
/-- A die's scheduler is to consider binding (R44): regions that have become eligible join its order behind the others, in launch order among
themselves, and those no longer eligible leave it. -/
def State.considerAt (s : State) (p d : Nat) : State :=
  let l := s.seekers p d
  let w := s.waiters p d
  let x := s.dieAt p d
  if w.isEmpty && x.elig.isEmpty then s
  else
    let new := l.filter fun r => !(x.elig.any fun e => e.1 == r.blk)
    s.modDieAt p d fun x => { x with
      due := x.due || !w.isEmpty
      elig := (x.elig.filter fun e => l.any fun r => r.blk == e.1) ++ new.zipIdx.map fun e => (e.1.blk, x.nextOrder + e.2) }
/-- A context has become free, or a region seeks cores: every scheduler of the package considers binding (R44). -/
def State.consider (s : State) (p : Nat) : State := (List.range 8).foldl (fun s d => s.considerAt p d) s

/-- The placing of saved groups, each with its core of the DIEMASK: for a gang all of them or none, else the one saved earliest (R54, R55). A core
that becomes free is taken first. The contexts that they come back to have no engine operation of an earlier task left, since they take other
counters (DESIGN CHOICE, log entry 78). -/
def State.restoreOn (s : State) (first : Option Loc) (r : Region) : Option (List (Loc × List Saved)) :=
  let gs := r.savedNext
  if !r.waitsSaved || gs.isEmpty || !s.budgetOk r gs.length then none
  else
    let n := gs.flatten.foldl (fun m x => max m x.group.size) 1
    let free := (r.dies.flatMap fun d => (s.freeCores { r with ctxpc := n } d).map fun c => (⟨paPkg r.blk, d, c⟩ : Loc)).filter fun l =>
      (List.range n).all fun c => (s.ctxAt l c).q.idle
    let free := (free.filter fun l => some l == first) ++ free.filter fun l => some l != first
    if gs.length ≤ free.length then some (free.zip gs) else none
/-- The placing of a region's saved groups as the cores stand. -/
def State.restorePlan (s : State) (r : Region) : Option (List (Loc × List Saved)) := s.restoreOn none r

/-! ### Launch (R38, R42, R391) -/

/-- A zero field inherits (R38). -/
def inherit (own : Nat) (par : Option Region) (f : Region → Nat) (root : Nat) : Nat :=
  if own ≠ 0 then own else match par with | some p => f p | none => root
/-- A value clamped to the parent's (R39). -/
def clamp (v : Nat) (par : Option Region) (f : Region → Nat) : Nat := match par with | some p => min v (f p) | none => v

/-- The raw value of BCORES after inheritance. -/
def State.bcoresOf (s : State) (blk : Nat) (b : List Byte) (par : Option Region) (ldie : Nat) : Nat :=
  let mask := inherit (fieldOf b 30 1) par (·.diemask) (2 ^ ldie)
  inherit (fieldOf b 32 2) par (·.bcores)
    (((List.range 8).filter fun d => mask.testBit d).map fun d => (s.enabled (paPkg blk) d).length).sum

/-- A block as the scheduler holds it, after inheritance (R38, R39). -/
def State.parseBlock (s : State) (blk : Nat) (b : List Byte) (par : Option Region) (lkey ldie root : Nat) (tree : Nat := 0) : Region :=
  let f := fieldOf b
  let mask := inherit (f 30 1) par (·.diemask) (2 ^ ldie)
  { blk := blk, parent := match par with | some p => p.blk | none => 0
    tree := tree, kind := f 24 1, prio := inherit (f 25 1) par (fun p => p.prio + 1) 1 - 1
    urgent := (f 26 1).testBit 0, shared := (f 26 1).testBit 1
    policy := inherit (f 27 1) par (·.policy) 1, fdom := inherit (f 28 2) par (·.fdom) (2 ^ 16 + root)
    diemask := mask, state := 0
    bcores := clamp (s.bcoresOf blk b par ldie) par (·.bcores), ctxpc := inherit (f 34 1) par (·.ctxpc) 1
    resv := f 35 1, savemask := f 36 1, plgrp := f 37 1
    bcycles := clamp (inherit (f 40 8) par (·.bcycles) (2 ^ 64)) par (·.bcycles)
    bmem := clamp (inherit (f 48 8) par (·.bmem) (2 ^ 64)) par (·.bmem)
    ptroot := inherit (f 56 8) par (·.ptroot) 0, segptr := inherit (f 64 8) par (·.segptr) 0, argptr := inherit (f 72 8) par (·.argptr) 0
    ntask := f 80 8, minch := inherit (f 88 4) par (·.minch) 1, maxch := inherit (f 92 4) par (·.maxch) 0xFFFFFFFF
    cflag := f 96 8 % 2 ^ 56, cval := BitVec.ofNat 64 (f 104 8), handler := inherit (f 112 8) par (·.handler) 0
    saveptr := f 120 8, plsrc := f 128 8 % 2 ^ 56, pllen := f 136 4
    next := 0, ended := 0, used := 0, home := lowDie mask, launch := lkey
    groups := [], saved := [], era := 0, suspending := false, resumeHeld := false
    flagged := false, flagOut := (0, 0), reran := false, rerun := false, pend := [] }

/-- The checks of R42 on one block. -/
def State.blockOk (s : State) (b : List Byte) (r : Region) (par : Option Region) (ldie : Nat) : Bool :=
  let f := fieldOf b
  let bc := s.bcoresOf r.blk b par ldie
  decide (1 ≤ r.kind) && decide (r.kind ≤ 3) && decide (r.prio ≤ 15) && (r.policy == 1 || r.policy == 2) &&
  decide (1 ≤ r.ctxpc) && decide (r.ctxpc ≤ 4) && decide (1 ≤ bc) && decide (bc ≤ 160) && decide (1 ≤ r.minch) && decide (r.minch ≤ r.maxch) &&
  decide (f 48 8 % 65536 = 0) && decide (r.ptroot ≠ 0) && (r.kind == 1 || decide (r.segptr ≠ 0)) &&
  decide (r.pllen % 512 = 0) && decide (r.pllen ≤ 2 ^ 20) && f 31 1 == 0 &&
  decide (f 26 1 < 4) && decide (f 36 1 < 32) && decide (f 37 1 / 4 % 32 = 0) && f 38 2 == 0 && f 140 4 == 0 && f 168 88 == 0

/-- The listed bytes of every memory: a bound on the blocks of a tree, since no valid block is all zero. -/
def State.memBound (s : State) : Nat := s.host.mem.length + (s.dies.map fun d => d.2.store.mem.length).sum

/-- The number of the next launch. -/
def State.nextTree (s : State) : Nat := s.regions.foldl (fun n r => max n (r.tree + 1)) 1

/-- The depth-first walk of a tree, children before siblings: the blocks still to visit, with their parents, and the regions found;
the first failing block otherwise (R42). A leaf or gang that names a child is walked like an inner region, and the child starts with
the tree (DESIGN CHOICE, log entry 63). -/
def State.walkTree (s : State) (l : Loc) (root : Nat) : Nat → List (Nat × Option Region) → List Region → State × Except Nat (List Region)
  | 0, _, acc => (s, .ok acc)
  | _, [], acc => (s, .ok acc)
  | n + 1, (blk, par) :: rest, acc =>
    if acc.any fun r => r.blk == blk then (s, .error blk)
    else match s.unitRead l 44 blk 256 with
      | (s, .error _) => (s, .error blk)
      | (s, .ok b) =>
        let r := s.parseBlock blk b par (dieKey l.pkg l.die) l.die root s.nextTree
        if !s.blockOk b r par l.die then (s, .error blk)
        else
          let child := fieldOf b 8 8
          let sib := fieldOf b 16 8
          let rest := if sib ≠ 0 ∧ par.isSome then (sib, par) :: rest else rest
          s.walkTree l root n (if child ≠ 0 then (child, some r) :: rest else rest) (acc ++ [r])

/-- A tree that fails a check: its root is FAULTED, its flag flipped, the failure logged (R391). A flag that cannot be written yet is owed. -/
def State.refuseTree (s : State) (l : Loc) (root bad : Nat) : State :=
  let s := s.logRegion l.pkg l.die 0x0504 0 bad
  match s.unitRead l 44 root 256 with
  | (s, .error _) => s
  | (s, .ok b) =>
    let s := s.unitPut l 44 (root + 31) (leBytes 1 5)
    let r := { s.parseBlock root b none (dieKey l.pkg l.die) l.die root with state := 5 }
    match s.flagWrite r r.flipped with
    | some s => s
    | none => { s with owed := s.owed ++ [r] }

/-- LAUNCH (R42): the tree is checked and started, or refused; beyond 16 live roots it is dropped (R391). A die that is not READY takes none
(R30). -/
def execLaunch (w : Word) (s : State) : Out :=
  .next (
    if s.die.boot ≠ .ready then s
    else
    let l : Loc := ⟨s.focus.pkg, s.focus.die, 0⟩
    let root := wbits w 55 8 * 256
    let live := (s.liveRoots l.pkg l.die).map (·.blk)
    if 16 ≤ live.length then s.logRegion l.pkg l.die 0x0505 0 root
    else match s.walkTree l root (s.memBound + 1) [(root, none)] [] with
      | (s, .error bad) => s.refuseTree l root bad
      | (s, .ok rs) =>
        let s : State := { s with regions := (s.regions.filter fun r => !(rs.any fun x => x.blk == r.blk)) ++ rs }
        let s := (s.modDie fun d => { d with roots := live ++ [root] }).setReserve l.pkg l.die
        ((rs.map fun r => paPkg r.blk).eraseDups).foldl State.consider (rs.foldl (fun s r => s.setState r.blk 1) s))

/-! ### Suspend and resume commands (R42, R52, R54) -/

/-- The contexts of a group. -/
def Group.ctxs (g : Group) : List (Loc × Nat) := (List.range g.size).map fun c => (g.l, c)
/-- The contexts bound to a region. -/
def State.ctxsOf (s : State) (r : Region) : List (Loc × Nat) :=
  (r.groups.flatMap Group.ctxs).filter fun x => match (s.ctxAt x.1 x.2).bind with | some b => b.blk == r.blk | none => false
/-- The stronger of two stopping marks: stopped, to stop, on a retired core, suspended. -/
def stronger (a b : Nat) : Nat := if a = 3 ∨ b = 3 then 3 else if a = 2 ∨ b = 2 then 2 else max a b
/-- Contexts take a stopping mark, unless they have a stronger one. -/
def State.markStop (s : State) (l : List (Loc × Nat)) (m : Nat) : State :=
  l.foldl (fun s x => s.modCtxAt x.1 x.2 fun c => { c with stopping := stronger c.stopping m }) s

/-- A suspend of one region (R52). -/
def State.suspendOne (s : State) (blk : Nat) : State :=
  match s.region? blk with
  | none => s
  | some r =>
    if r.saveptr = 0 ∨ r.state ≠ 1 ∧ r.state ≠ 2 ∨ r.suspending then s
    else (s.modRegion blk fun r => { r with suspending := true, era := r.era + 1 }).markStop (s.ctxsOf r) 1
/-- The region that a command names, at the die that launched its tree; else it is dropped and logged (R42, R391). -/
def State.commanded (s : State) (w : Word) (f : State → Nat → State) : Out :=
  let blk := wbits w 55 8 * 256
  .next (match s.region? blk with
    | some r => if r.launch = dieKey s.focus.pkg s.focus.die then f s blk else s.logRegion s.focus.pkg s.focus.die 0x0505 0 blk
    | none => s.logRegion s.focus.pkg s.focus.die 0x0505 0 blk)
/-- SUSPEND (R52). -/
def execSuspend (w : Word) (s : State) : Out :=
  s.commanded w fun s blk => (s.below blk).foldl (fun s r => s.suspendOne r.blk) s

/-- An inner region that waits again drains at once where its children do (R41). -/
def State.drainAgain (s : State) (blk : Nat) : State :=
  match s.region? blk with | some r => (s.drainOne r).drainUp s.regions.length blk | none => s
/-- A suspended region takes BCORES, DIEMASK and CTXPC anew and waits for placement (R54). -/
def State.resumeNow (s : State) (blk : Nat) : State :=
  match s.region? blk with
  | none => s
  | some r =>
    let par := s.parentOf r
    match s.unitRead r.homeLoc 44 blk 256 with
    | (s, .error _) => s
    | (s, .ok b) =>
      let ldie := r.launch % 16
      let mask := inherit (fieldOf b 30 1) par (·.diemask) (2 ^ ldie)
      (((s.modRegion blk fun r => { r with
        diemask := mask, home := lowDie mask, resumeHeld := false
        bcores := clamp (s.bcoresOf blk b par ldie) par (·.bcores), ctxpc := inherit (fieldOf b 34 1) par (·.ctxpc) 1 }).setState blk 1).drainAgain blk).consider (paPkg blk)
/-- RESUME (R54): held while the suspension is under way; ignored by a FAULTED region (R394). -/
def execResume (w : Word) (s : State) : Out :=
  s.commanded w fun s blk => (s.below blk).foldl (fun s r =>
    if r.state = 6 then s.resumeNow r.blk
    else if r.suspending then s.modRegion r.blk fun r => { r with resumeHeld := true }
    else s) s

/-! ### Starting a task (R49, R50) -/

/-- The entry registers of R49. -/
def Regs.entry (r : Regs) (arg blk member : Nat) : Regs :=
  ((r.put (.s 1) (.bits arg)).put (.s 2) (.bits blk)).put (.s 3) (.bits member)
/-- A task starts at the entry of SEGPTR's segment; that entry is a confirmed checkpoint (R80), as of the bundle issued before it. -/
def Ctx.startTask (c : Ctx) (b : Bind) (arg notBefore : Nat) : Ctx :=
  let ctl : Ctl := { Ctl.reset with seg := b.segptr, entry := true }
  { c with
    bind := some b
    q := { c.q with failed := [], cut := [] }
    ctl := ctl
    latch := []
    drain := false
    yielding := false
    aside := none
    regs := c.regs.entry arg b.blk b.member
    sys := { c.sys with h := false }
    pipe := { c.pipe with
      cks := [], fault := none, wait := [], waitf := none, tl0 := c.q.tl, clash := [], lost := []
      restart := { Ckpt.reset with ser := c.pipe.ser - 1, ctl := ctl, tl := c.q.tl, fos := c.q.fo, rps := c.regs.cb.map fun e => (e.1, e.2.rp) } }
    notBefore := max c.notBefore notBefore }
/-- Zeroed registers; a CBSET that has still to take effect holds its handle (R50, R138). -/
def Queues.zeroRegs (q : Queues) : Regs :=
  { Regs.reset with cb := (q.cmds.filter fun k => k.kind == 4).foldl (fun t k => tmod CBuf.reset t k.cb fun b => { b with pendSet := b.pendSet + 1 }) [] }
/-- A context's registers and system registers are zeroed, which takes 256 cycles (R50). -/
def Ctx.zeroed (c : Ctx) : Ctx := { Ctx.reset with bind := c.bind, q := c.q, regs := c.q.zeroRegs, pipe := { Pipe.reset with ser := c.pipe.ser + 1 }, stopping := c.stopping }
/-- The binding of a region's context. -/
def Region.bindOf (r : Region) (member : Nat) : Bind := ⟨r.blk, member, r.ptroot, r.handler, r.segptr, false, 0, 0, none, false, false, 0⟩
/-- Tag-table entries of a context are invalid from its binding on (R143). -/
def Core.dropTags (k : Core) (c : Nat) : Core :=
  { k with tags := k.tags.map fun e => if e.2.ctx = c then (e.1, { e.2 with valid := false }) else e }
/-- A core on which no context is bound pays no switch for its next issue (R60). -/
def Core.fresh (k : Core) : Core := if k.ctxs.any fun c => c.2.bind.isSome then k else { k with cur := none, last := none }

/-- A preload of a bank group that was discarded for a region's next task is copied again before its first bundle issues (R397). -/
def Ctx.preFor (c : Ctx) (blk : Nat) : Option (Nat × Nat × Nat) :=
  match c.preBank with | some (b, n, m) => if b = blk ∧ n < m then some (b, n, m) else none | none => none
/-- A context without a binding starts on a region with zeroed registers. -/
def Core.bindFree (k : Core) (c : Nat) (r : Region) (member : Nat) : Core :=
  (k.fresh.dropTags c).modCtx c fun x =>
    { ({ x with stopping := 0 }.zeroed).startTask (r.bindOf member) r.argptr (k.cycle + 256) with preBank := x.preFor r.blk }
/-- A context that passes on to another region's task: it restarts with its registers where SEGPTR and PTROOT are the same, else it
makes an overlay swap (R49, R50). A suspension of the region that it leaves stops it no more (R52). -/
def Core.bindPass (k : Core) (c : Nat) (r : Region) (member : Nat) : Core :=
  k.modCtx c fun x =>
    let b := r.bindOf member
    match x.bind with
    | some o =>
      if o.segptr = b.segptr ∧ o.root = b.root then { x.startTask b r.argptr k.cycle with stopping := 0, preBank := x.preFor r.blk }
      else { x with bind := some { b with swap := if o.root = b.root then 1 else 2 }, stopping := 0 }
    | none => x

/-- A core group as it is bound. -/
def Group.new (l : Loc) (member size : Nat) : Group :=
  { l := l, member := member, size := size, narrowed := false, cause := 0, shared := none, got := [], task := none, dealt := [], ended := [], gone := [], counted := false }
/-- A core group of a region is bound on a core; `held` contexts pass on without becoming free. -/
def State.bindGroup (s : State) (r : Region) (l : Loc) (member : Nat) : State :=
  let s := s.modCoreAt l fun k => (List.range r.ctxpc).foldl (fun k c =>
    if (k.ctx c).bind.isSome then k.bindPass c r member else k.bindFree c r member) k
  let s := (List.range r.ctxpc).foldl (fun s c => if ((s.ctxAt l c).preFor r.blk).isSome then s.post l c (.preload r.blk) else s) s
  s.modRegion r.blk fun r => { r with groups := r.groups ++ [Group.new l member r.ctxpc] }

/-! ### Placement (R44 to R47, R55) -/

/-- A region can be bound now. -/
def State.placeable (s : State) (d : Nat) (r : Region) : Bool :=
  match s.wants r with | some n => decide (n ≤ (s.offers r d).length) | none => false

/-- The least element of a list by a measure, the first of equals. -/
def leastBy {α : Type} (f : α → Nat) (l : List α) : Option α :=
  l.foldl (fun b x => match b with | none => some x | some y => if f x < f y then some x else some y) none
/-- The region served next: urgent leaves that a reserved core is free for, then the highest priority, and round-robin within it (R44). -/
def State.choose (s : State) (p d : Nat) (l : List Region) : Option Region :=
  let res := s.reserved p d
  let first := l.filter fun r => r.urgent && r.kind == 2 && ((s.offers r d).any fun x => res.contains x.core)
  let l := if first.isEmpty then l else first
  let top := l.foldl (fun m r => max m r.prio) 0
  let l := l.filter fun r => r.prio == top
  let from_ := tget 0 (s.dieAt p d).rr top
  match leastBy (s.orderOf p d) (l.filter fun r => decide (from_ ≤ s.orderOf p d r)) with
  | some r => some r
  | none => leastBy (s.orderOf p d) l
/-- After a decision the pointer of the priority stops past the region served (R44). -/
def State.served (s t : State) (p d : Nat) (r : Region) : State :=
  (t.modDieAt p d fun x => { x with rr := tset x.rr r.prio (s.orderOf p d r + 1) }).consider p

/-- A region is bound on its first free cores; a gang's members are numbered in that order (DESIGN CHOICE, log entry 73). -/
def State.place (s : State) (p d : Nat) (r : Region) : State :=
  let ls := (s.offers r d).take ((s.wants r).getD 0)
  let s := s.served (ls.zipIdx.foldl (fun s x => s.bindGroup r x.1 (if r.kind = 3 then x.2 else 0)) s) p d r
  if r.state = 1 then s.setState r.blk 2 else s

/-- Groups of a region on a die that have not been narrowed. -/
def Region.onDie (r : Region) (d : Nat) : List Group := r.groups.filter fun g => decide (g.l.die = d) && !g.narrowed
/-- Core groups of a region on a die, narrowed or not. -/
def Region.coresOn (r : Region) (d : Nat) : Nat := (r.groups.filter fun g => decide (g.l.die = d)).length
/-- The lowest-priority leaf with a group to narrow on a die, below a priority; ties by most cores held there, then by lowest block (R47). -/
def State.victim (s : State) (p d prio : Nat) : Option Region :=
  let l := s.regions.filter fun r => paPkg r.blk == p && r.kind == 2 && decide (r.prio < prio) && !(r.onDie d).isEmpty
  l.foldl (fun b r => match b with
    | none => some r
    | some x =>
      let n := r.coresOn d
      let m := x.coresOn d
      if r.prio < x.prio ∨ r.prio = x.prio ∧ (m < n ∨ m = n ∧ r.blk < x.blk) then some r else some x) none
/-- A region's highest-numbered group on a die is narrowed for another region. -/
def State.narrowOn (s : State) (r : Region) (d cause : Nat) : State :=
  let top := (r.onDie d).foldl (fun m g => max m g.l.core) 0
  s.modRegion r.blk fun r => { r with groups := r.groups.map fun g => if g.l.die = d ∧ g.l.core = top then { g with narrowed := true, cause := cause } else g }
/-- Groups that are narrowed for a region and not yet free. -/
def State.narrowedFor (s : State) (r : Region) : Nat :=
  (s.regions.map fun x => (x.groups.filter fun g => g.narrowed && g.cause == r.blk && x.blk != r.blk).length).sum
/-- Groups on a die are narrowed for a region, `n` of them if there are so many. -/
def State.narrowTimes (s : State) (p d : Nat) (r : Region) : Nat → State
  | 0 => s
  | n + 1 => match s.victim p d r.prio with
    | none => s
    | some v => (s.narrowOn v d r.blk).narrowTimes p d r n
/-- A waiting region narrows at a decision: a leaf one group, a gang as many as it lacks on all its dies (R47). -/
def State.narrowOne (s : State) (p d : Nat) (r : Region) : State :=
  s.narrowTimes p d r (if r.kind = 3 then (s.needs r).getD 0 - (s.offers r d).length - s.narrowedFor r else 1)
/-- A decision that binds nothing narrows for every waiting region, the highest priority first, be it one whose saved contexts wait; binding is
considered again at the next cause (R44, R47, R54). -/
def State.narrowFor (s : State) (p d : Nat) : State :=
  let waits := (s.waiters p d).filter fun r => !s.placeable d r && (s.restorePlan r).isNone
  ((List.range 16).reverse.flatMap fun q => waits.filter fun r => r.prio == q).foldl (fun s r => s.narrowOne p d r)
    (s.modDieAt p d fun x => { x with due := false })

/-! ### Failure of regions, and gangs that run once more (R359, R360, R394, R396, R397) -/

/-- A preload is discarded; data of a bank group is copied again before the task that it is for begins (R397). -/
def Ctx.discard (c : Ctx) : Ctx :=
  { c with pre := none, idle := if c.pre.isSome then none else c.idle, preBank := c.preBank.map fun e => (e.1, 0, e.2.2) }
/-- One region is FAULTED, and its block says so at once (R360): a suspension is abandoned, saved contexts never resume, bound contexts are to
stop, and their preloads are discarded unless it overran its budget by itself (R397). -/
def State.failOne (s : State) (blk : Nat) (keep : Bool := false) : State :=
  match s.region? blk with
  | none => s
  | some r =>
    if r.final then s
    else
      let s := ((s.modRegion blk fun r => { r with suspending := false, resumeHeld := false, rerun := false, saved := [] }).setState blk 5).markStop (s.ctxsOf r) 2
      if keep then s else (s.ctxsOf r).foldl (fun s x => s.modCtxAt x.1 x.2 Ctx.discard) s
/-- Every region of the same fault domain is FAULTED with it (R359). -/
def State.failDomain (s : State) (blk : Nat) : State :=
  match s.region? blk with
  | none => s
  | some r => (s.regions.filter fun x => x.fdom == r.fdom).foldl (fun s x => s.failOne x.blk) s
/-- DIEMASK does not hold as many enabled cores as the gang has members (R396). -/
def State.gangShort (s : State) (r : Region) : Bool := decide ((r.dies.map fun d => (s.enabled (paPkg r.blk) d).length).sum < r.ntask)
/-- A gang has lost a member: logged at its home die; it runs once more, or fails (R396). -/
def State.gangLost (s : State) (blk : Nat) : State :=
  match s.region? blk with
  | none => s
  | some r =>
    if r.final ∨ r.rerun then s
    else
      let s := s.logRegion (paPkg blk) r.home 0x0502 0 blk
      if r.policy = 2 ∧ !r.reran ∧ !s.gangShort r then (s.modRegion blk fun r => { r with rerun := true }).markStop (s.ctxsOf r) 2
      else s.failDomain blk

/-- The contexts leave their groups and are free; registers, flags, queues and counters stay until a binding zeroes them (R50). -/
def Ctx.unbound (c : Ctx) : Ctx := { Ctx.reset with q := c.q, regs := c.regs, sys := { c.sys with h := false }, pipe := { Pipe.reset with ser := c.pipe.ser, infl := c.pipe.infl }, preBank := c.preBank }
/-- The array is given up by a context that stops for good: released as by MREL, so that the items it has left enter and drains land before
ownership ends (R125, R249); a rollback that awaits the array ends in a release. -/
def Arr.leave (r : Arr) (c : Nat) : Arr :=
  if r.owner = some c then { r with releasing := true, rest := r.rest.map fun x => (x.1, x.2.1, true) } else r
def State.freeCtx (s : State) (l : Loc) (c : Nat) : State :=
  s.modCoreAt l fun k => ({ (k.modCtx c Ctx.unbound) with arr := k.arr.leave c } : Core).fresh
/-- Every context of a region is free, and it holds no group. -/
def State.freeRegion (s : State) (r : Region) : State :=
  (((s.ctxsOf r).foldl (fun s x => s.freeCtx x.1 x.2) s).modRegion r.blk fun r => { r with groups := [] }).consider (paPkg r.blk)
/-- A context has stopped: parked, ended, or between tasks. -/
def Ctx.isStopped (c : Ctx) : Bool :=
  c.stopping == 3 || (match c.bind with | some b => b.ended || b.swap != 0 | none => true)
/-- Every context of a region has stopped. -/
def State.allStopped (s : State) (r : Region) : Bool := (s.ctxsOf r).all fun x => (s.ctxAt x.1 x.2).isStopped

/-- A gang that is to run once more, whose contexts have stopped and released what they had confirmed, waits for placement anew (R396). -/
def State.rerunGang (s : State) (r : Region) : State :=
  (((s.freeRegion r).modRegion r.blk fun r => { r with rerun := false, reran := true, ended := 0 }).setState r.blk 1).consider (paPkg r.blk)
def State.rerunDue (s : State) (p d : Nat) : Option Region :=
  s.regions.find? fun r => r.rerun && paPkg r.blk == p && r.home == d && s.allStopped r && (s.ctxsOf r).all fun x => (s.ctxAt x.1 x.2).pipe.held.isEmpty
/-- A gang that is to run once more finds too few cores: the rerun fails (R396). -/
def State.rerunFails (s : State) (p d : Nat) : Option Region :=
  s.regions.find? fun r => r.kind == 3 && !r.final && paPkg r.blk == p && r.home == d && s.gangShort r &&
    (r.rerun || (r.reran && r.groups.isEmpty && r.saved.isEmpty && decide (r.ended < r.ntask)))

/-- What a die's scheduler does next, if anything. -/
def State.bindStep (s : State) (p d : Nat) : Option State :=
  match s.rerunFails p d, s.rerunDue p d with
  | some r, _ => some ((s.logRegion p d 0x0502 0 r.blk).failDomain r.blk)
  | none, some r => some (s.rerunGang r)
  | none, none =>
    if !s.binds p d then none
    else
      let l := s.seekers p d
      match s.choose p d (l.filter (s.placeable d)) with
      | some r => some (s.place p d r)
      | none => if (s.dieAt p d).due then some (s.narrowFor p d) else none
/-- BIND_CORE_GROUP (R44): one decision of the die's scheduler. -/
def execBindCoreGroup (s : State) : Out := .next ((s.bindStep s.focus.pkg s.focus.die).getD s)

/-! ### Deals (R48, R54, R55) -/

def Region.modGroup (r : Region) (l : Loc) (f : Group → Group) : Region :=
  { r with groups := r.groups.map fun g => if g.l = l then f g else g }
/-- The size of the next deal. -/
def Region.dealSize (r : Region) (narrowed : Bool) : Nat :=
  let rem := r.ntask - r.next
  let k := max 1 r.groups.length
  if r.kind = 3 || narrowed || rem = 0 || r.waitsSaved || decide (r.state = 5) then 0
  else min (min (max r.minch ((rem + 2 * k - 1) / (2 * k))) r.maxch) rem
/-- The group of a core, as it is bound where the region has none there. -/
def Region.groupOf (r : Region) (l : Loc) : Group := (r.groupAt l).getD (Group.new l 0 r.ctxpc)
/-- The other contexts of a group that go on dealing have received its current deal, or there is none. -/
def Group.allGot (g : Group) (c : Nat) : Bool := (List.range g.size).all fun x => x == c || g.gone.contains x || g.got.contains x

/-- The task that a context of a group is in, counted from the oldest one whose end is not yet counted (R48). -/
def Group.taskOf (g : Group) (c : Nat) : Nat := g.ended.count c
/-- A new shared deal, computed for a context: it is counted with that context's task. -/
def Group.share (g : Group) (c : Nat) (d : Nat × Nat) : Group :=
  { g with shared := some d, got := [c], task := some (g.taskOf c), dealt := tmod 0 g.dealt (g.taskOf c) fun x => x + d.2 }
/-- A context receives the current shared deal; in a later task than those that have it, the deal is counted with that task. -/
def Group.receive (g : Group) (c : Nat) (d : Nat × Nat) : Group :=
  let j := g.taskOf c
  let g := { g with got := c :: g.got }
  match g.task with
  | some i => if i < j then { g with task := some j, dealt := tmod 0 (tmod 0 g.dealt i fun x => x - d.2) j fun x => x + d.2 } else g
  | none => g
/-- The oldest task of a group has ended in every context: it is counted, and the next one is the oldest. -/
def Group.taskEnds (g : Group) : Group :=
  { g with
    ended := (List.range g.size).foldl List.erase g.ended
    task := g.task.bind fun i => if i = 0 then none else some (i - 1)
    dealt := (g.dealt.filter fun e => e.1 != 0).map fun e => (e.1 - 1, e.2) }

/-- A deal answered to a context of a region: the pair, and the region after it. A narrowed group of a SHARED leaf goes on handing out its
current pair, since R48 gives it to every context (DESIGN CHOICE, log entry 61). -/
def Region.deal (r : Region) (l : Loc) (c : Nat) : (Nat × Nat) × Region :=
  let g := r.groupOf l
  let n := r.dealSize g.narrowed
  let fresh : Nat × Nat := (r.next, n)
  let all : (Nat × Nat) × Region :=
    (fresh, ({ r with next := r.next + n } : Region).modGroup l fun g => g.share c fresh)
  if !r.shared || decide (r.kind = 3) then (fresh, { r with next := r.next + n })
  else match g.shared with
    | some d => if g.got.contains c then all else (d, r.modGroup l fun g => g.receive c d)
    | none => all
/-- The next deal of a shared group waits for a context that has not received the current one (R48). -/
def Region.dealWaits (r : Region) (l : Loc) (c : Nat) : Bool :=
  r.shared && r.kind == 2 && match r.groupAt l with
    | some g => g.shared.isSome && g.got.contains c && !g.allGot c
    | none => false
/-- A count of 0 for the sake of a saved context narrows the group that receives it (R54). -/
def Region.narrowSaved (r : Region) (l : Loc) (n : Nat) : Region :=
  if n = 0 && r.waitsSaved && r.kind == 2 then r.modGroup l fun g => if g.narrowed then g else { g with narrowed := true, cause := r.blk } else r

/-- The request may be answered: its context still waits for it. -/
def State.dealReady (s : State) (u : UnitReq) : Bool :=
  let c := s.ctxAt u.l u.c
  match c.pipe.waits 1, c.bind with
  | some w, some b => decide (w.ser = u.ser) && (b.again || match s.region? b.blk with | some r => !r.dealWaits u.l u.c | none => true)
  | _, _ => true
/-- One request is answered with its pair. -/
def State.serveDeal (s : State) (u : UnitReq) : State :=
  let c := s.ctxAt u.l u.c
  match c.pipe.waits 1, c.bind, u.eff with
  | some w, some b, .deal d =>
    if w.ser ≠ u.ser then s
    else match s.region? b.blk with
    | none => s
    | some r =>
      let ((start, n), r') := if b.again then ((b.deal.getD (0, 0)), r) else r.deal u.l u.c
      let s := s.modRegion r.blk fun _ => r'.narrowSaved u.l n
      let s := if r.state = 2 ∧ r'.next = r'.ntask ∧ r'.kind = 2 then s.stateTo r.blk 3 else s
      s.onCtx u.l u.c fun s => (s.waitDone 1 [(d, BitVec.ofNat 64 start), (d + 1, BitVec.ofNat 64 n)]).modCtx fun c => { c with
        bind := some { b with
          again := false
          dealt := if b.again || r.shared then b.dealt else b.dealt + n
          deal := if n = 0 then b.deal else some (start, n)
          reran := if b.again || n = 0 then b.reran else false } }
  | _, _, _ => s
/-- DEALER_REQUEST (R48): the first request that can be answered is. -/
def execDealerRequest (s : State) : Out :=
  .next (match s.die.dealq.find? s.dealReady with
    | none => s
    | some u => (s.modDie fun d => { d with dealq := d.dealq.erase u }).serveDeal u)

end Sys2Proof.Machine
end

