-- ==== Sys2Proof/Machine/Restore.lean ====
section
/-! DEFINITION. Saved contexts and their return: sections of a save slot, the placing of contexts on cores (R53, R54, R359, R410, R418). -/

namespace Sys2Proof.Machine

/-! ### Save slots (R53) -/

/-- Set bits of SAVEMASK's scratchpad groups. -/
def saveGroups (m : Nat) : List Nat := (List.range 4).filter fun g => m.testBit g
/-- Bytes of a save slot (R53). -/
def slotSize (m : Nat) : Nat := 0x48000 + ((saveGroups m).length + (if m.testBit 4 then 1 else 0)) * 2 ^ 20
/-- A handle with the fields of its 64 bytes. -/
def CBuf.fromRecord (c : CBuf) (b : List Byte) : CBuf :=
  { c with base := fieldOf b 0 4, ssize := fieldOf b 4 2, nslot := fieldOf b 6 2, wp := fieldOf b 8 4, rp := fieldOf b 12 4, rpc := fieldOf b 16 4 }
/-- The entry of 16 bytes. -/
def HEntry.fromRecord (b : List Byte) : HEntry :=
  ⟨BitVec.ofNat 32 (fieldOf b 0 4), BitVec.ofNat 32 (fieldOf b 4 4), BitVec.ofNat 32 (fieldOf b 8 4), (fieldOf b 12 1).testBit 0⟩

/-! ### Restoring (R54, R418) -/

/-- Sections read back from a slot: each must pass its check. -/
def State.readSlot (s : State) (l : Loc) (base : Nat) : List (Nat × Nat) → State × Except Nat (List (List Byte))
  | [] => (s, .ok [])
  | e :: t =>
    match s.unitRead l 44 (base + e.1) e.2 with
    | (s, .error a) => (s, .error a)
    | (s, .ok b) => match s.readSlot l base t with
      | (s, .ok r) => (s, .ok (b :: r))
      | r => r
/-- The sections of a slot whose layout is given, then the saved bank groups and accumulator memory. -/
def slotSections (mask : Nat) : List (Nat × Nat) :=
  [(0, 0x20000), (0x20000, 0x20000), (0x40000, 0x400), (0x40400, 0x200), (0x40600, 0x200), (0x40800, 0x400), (0x40C00, 0x400),
   (0x41000, 0x1000), (0x42000, 0x80), (0x42080, 0x5F80)] ++ (List.range ((saveGroups mask).length + if mask.testBit 4 then 1 else 0)).map fun i => (0x48000 + i * 2 ^ 20, 2 ^ 20)
/-- Registers of one kind from their section. -/
def sectionTab (w : Nat) (b : List Byte) (n size : Nat) : Tab (BitVec w) :=
  (List.range n).map fun i => (i, BitVec.ofNat w (leNat ((b.drop (i * size)).take size)))
/-- The registers that a slot restores, FMT among them. -/
def Regs.restored (r : Regs) (b : List (List Byte)) : Regs :=
  let sec (i : Nat) : List Byte := nth [] b i
  { r with
    v := sectionTab 1024 (sec 0) 1024 128, w := sectionTab 1024 (sec 1) 1024 128, s := sectionTab 64 (sec 3) 64 8
    vk := sectionTab 256 (sec 4) 8 32, wk := sectionTab 256 ((sec 4).drop 256) 8 32, tm := sectionTab 1024 (sec 5) 8 128
    cb := (List.range 16).map fun i => (i, (tget CBuf.reset r.cb i).fromRecord ((sec 6).drop (64 * i)))
    hand := (List.range 4).map fun i => (i, (List.range 64).map fun j => HEntry.fromRecord ((sec 7).drop (1024 * i + 16 * j)))
    gen := (List.range 4).map fun i => (i, (⟨BitVec.ofNat 128 (fieldOf (sec 8) (32 * i) 16), fieldOf (sec 8) (32 * i + 16) 1, []⟩ : Gen))
    fmt := BitVec.ofNat 64 (fieldOf (sec 2) 8 8 % 2 ^ 26), fmtq := [] }
/-- The queues that a slot restores: counters, FIFO words, and the data of the load and gather queues (R53). -/
def Queues.restored (q : Queues) (b : List (List Byte)) : Queues :=
  let ctl := nth [] b 2
  let part (o n : Nat) : List Byte := ((nth [] b 9).drop (o - 0x42080)).take n
  let word (l : List Byte) (i : Nat) : BitVec 128 := BitVec.ofNat 128 (fieldOf l (16 * i) 16)
  { q with
    tl := (List.range 5).map fun i => (i, fieldOf ctl (16 + 8 * i) 8)
    fo := q.fo.map fun e => let l := part (0x42100 + 256 * e.1) 256; (e.1, { e.2 with build := e.2.build.zipIdx.map fun w => word l w.2 })
    fi := q.fi.map fun e => let l := part (0x42300 + 1024 * e.1) 1024; (e.1, ⟨e.2.words.zipIdx.map fun w => { w.1 with word := word l w.2 }⟩)
    ldq := q.ldq.zipIdx.map fun e => { e.1 with data := part (0x43000 + 128 * e.2) e.1.data.length }
    gdq := q.gdq.zipIdx.map fun e =>
      let l := part (0x44000 + 128 * e.2) 128
      { e.1 with lanes := e.1.lanes.map fun x => (x.1, (l.drop (x.1 * e.1.e)).take x.2.length) } }
/-- Issue goes on at the restart address of a slot: where it is another than was saved, at that slot of the segment. -/
def Ctl.resumeAt (c : Ctl) (old new : Nat) : Ctl :=
  if new = old then c
  else if codeVa c.seg 0 ≤ new ∧ new % 4 = 0 ∧ new < codeVa c.seg 4080 then { c with off := (new - codeVa c.seg 0) / 4, entry := false }
  else { c with bad := some new }
/-- The context that a slot restores (R54). What the slot holds in Torkel's own layout is as it was saved. -/
def Saved.back (v : Saved) (b : List (List Byte)) : Ctx :=
  let go (c : Ctl) : Ctl := c.resumeAt v.resume (fieldOf (nth [] b 2) 0 8)
  { v.ctx with
    regs := v.ctx.regs.restored b, q := v.ctx.q.restored b, stopping := 0, fetch := none, latch := []
    idle := if v.ctx.pre.isSome then none else v.ctx.idle, pre := none, preBank := none
    ctl := go v.ctx.ctl, pipe := { v.ctx.pipe with restart := { v.ctx.pipe.restart with ctl := go v.ctx.pipe.restart.ctl } } }
/-- Bank groups and accumulator memory that a slot restores. -/
def Core.restored (k : Core) (mask : Nat) (b : List (List Byte)) : Core :=
  let gs := saveGroups mask
  let k := gs.zipIdx.foldl (fun (k : Core) g => { k.rewritten 2 (g.1 * 2 ^ 20) (2 ^ 20) with spad := Memory.write k.spad (g.1 * 2 ^ 20) (nth [] b (10 + g.2)) }) k
  if mask.testBit 4 then { k.rewritten 3 0 (2 ^ 20) with accm := Memory.write k.accm 0 (nth [] b (10 + gs.length)) } else k

/-- The current deal of a saved context runs once more from the task's entry, on the core that was to receive it (R359, R418). -/
def State.runAgain (s : State) (r : Region) (l : Loc) (v : Saved) : State :=
  s.modCoreAt l fun k => (k.bindFree v.c r v.group.member).modCtx v.c fun c =>
    { c with bind := (c.bind.bind fun n => v.ctx.bind.map fun b => { n with deal := b.deal, dealt := b.dealt, again := b.deal.isSome, reran := true }) }
/-- One saved context is placed on a core: its state comes back, or its slot fails its check and the region's policy applies (R418). In a region that
has failed meanwhile none is (R394). Operations of earlier tasks at the hardware context are complete. -/
def State.restoreOne (s : State) (r : Region) (l : Loc) (v : Saved) : State :=
  let extra := (slotSections r.savemask).length - 10
  if (match s.region? r.blk with | some x => x.final | none => true) then s
  else if v.fresh then s.runAgain r l v
  else
  let s := { s with regions := s.regions.map fun (x : Region) => { x with pend := x.pend.filter fun e => e.1 != l || e.2.1 != v.c } }
  match s.readSlot ⟨l.pkg, l.die, 0⟩ (r.saveptr + v.slot * slotSize r.savemask) (slotSections r.savemask) with
  | (s, .ok b) =>
    s.modCoreAt l fun k =>
      (((k.fresh.dropTags v.c).restored r.savemask b).modCtx v.c fun _ =>
        let c := v.back b
        { c with notBefore := k.cycle + 300 + 1024 * extra, pipe := { c.pipe with horizon := k.cycle } })
  | (s, .error a) =>
    let code := auxCode a
    let s := s.logError l.pkg l.die code l.pkg l.die v.c 44 0 0 r.blk
    if r.policy == 2 && (match v.ctx.bind with | some b => !b.reran | none => false) then s.runAgain r l v
    else s.failDomain r.blk
/-- Groups narrowed for the sake of saved contexts are narrowed no more once none waits (R54). -/
def Region.endNarrowing (r : Region) : Region :=
  if r.saved.isEmpty then { r with groups := r.groups.map fun g => if g.cause = r.blk then { g with narrowed := false, cause := 0 } else g } else r
/-- The saved contexts placed next come back, if cores take them; a core that becomes free goes first (R54). The leaf is RUNNING again, or DRAINING
when no deals are left (R41). -/
def State.restoreNow (s : State) (r : Region) (first : Option Loc) : State :=
  match s.restoreOn first r with
  | none => s
  | some plan =>
    let all := plan.flatMap (·.2)
    let s := s.modRegion r.blk fun r => ({ r with
      saved := r.saved.filter fun x => !(all.any fun y => y.slot == x.slot)
      groups := r.groups ++ plan.filterMap fun e => e.2.head?.map fun v => { v.group with l := e.1, narrowed := false, cause := 0 } } : Region).endNarrowing
    let s := plan.foldl (fun s e => e.2.foldl (fun s v => s.restoreOne r e.1 v) s) s
    let s := match s.region? r.blk with
      | some x => if x.state = 1 then s.stateTo r.blk (if x.kind = 2 ∧ x.next = x.ntask then 3 else 2) else s
      | none => s
    s.consider (paPkg r.blk)
/-- CONTEXT_RESTORE (R54). -/
def execContextRestore (blk : Nat) (s : State) : Out :=
  .next (match s.region? blk with | none => s | some r => s.restoreNow r none)

end Sys2Proof.Machine
end

