-- ==== Sys2Proof/Machine/Tasks.lean ====
section
/-! DEFINITION. Task ends, overlay swaps, preloads and barriers (R49 to R51, R55, R56, R312, R397, R398). -/

namespace Sys2Proof.Machine

/-! ### Task ends and overlay swaps (R49, R50, R55) -/

/-- A task's end discards the data queues and a packet only partly built; a LOADREQ that waits behind a FENCE is still sent (R49, R398). -/
def Queues.endTask (q : Queues) : Queues :=
  let part := q.fo.filter fun e => !e.2.build.isEmpty
  let q := part.foldl (fun (q : Queues) e => q.complete 2 e.2.num) q
  { q with
    ldq := [], gdq := []
    lq := q.lq.filter fun i => match i.kind with | .mark .. | .fi .. => true | _ => false
    fo := q.fo.map fun e => (e.1, { e.2 with held := e.2.held - e.2.build.length, build := [] }) }
/-- ENDED counts what a context's TASKEND ends (R48, R55): a SHARED group's deals when the last of its contexts has ended that task. -/
def Region.countEnd (r : Region) (l : Loc) (c dealt : Nat) : Region :=
  let r := r.modGroup l fun g => { g with ended := c :: g.ended }
  let g := r.groupOf l
  let whole := (List.range g.size).all fun x => g.ended.contains x || g.gone.contains x
  if r.kind = 3 then
    if whole && !g.counted then { r with ended := r.ended + 1 }.modGroup l fun g => { g with counted := true } else r
  else if r.shared then
    if whole then { r with ended := r.ended + tget 0 g.dealt 0 }.modGroup l Group.taskEnds else r
  else { r with ended := r.ended + dealt }
/-- Counters of a context whose task has ended, for the completion of its region (R43). -/
def State.notePend (s : State) (blk : Nat) : State :=
  s.modRegion blk fun r => { r with pend := (r.pend.filter fun e => e.1 != s.focus || e.2.1 != s.sub) ++ [(s.focus, s.sub, s.ctx.q.tl)] }
/-- A group with its core passes to a region at once: to a leaf, or to a gang whose other members find free cores (R49, R55).
On the core that passes the gang has its member 0 (DESIGN CHOICE, log entry 73). -/
def State.passGroup (free s : State) (r n : Region) (l : Loc) (size : Nat) : State :=
  let s := (rangeFrom n.ctxpc (size - n.ctxpc)).foldl (fun s c => s.freeCtx l c) s
  let others := if n.kind = 3 then ((free.offers n l.die).filter fun x => x != l).take (n.ntask - 1) else []
  let s := ((l :: others).zipIdx.foldl (fun s x => s.bindGroup n x.1 (if n.kind = 3 then x.2 else 0)) s)
  let s := free.served s l.pkg l.die n
  let s := if n.state = 1 then s.setState n.blk 2 else s
  if r.blk = n.blk then s else s.consider l.pkg
/-- The region whose saved contexts can take a core that becomes free: the one that leaves it, else one of the highest priority (R54). -/
def State.savedTaker (s : State) (r : Region) (l : Loc) : Option Region :=
  let can := s.regions.filter fun x => paPkg x.blk == l.pkg && match s.restoreOn (some l) x with | some p => p.any fun e => decide (e.1 = l) | none => false
  match can.find? fun x => x.blk == r.blk with
  | some x => some x
  | none => leastBy (fun x => 16 - x.prio) can
/-- A group whose contexts have all ended leaves its region; its core goes to the saved contexts that wait for it, where they are of the same region
or of no lower priority than the next assignment, else to that assignment, or its contexts are free (R49, R54). -/
def State.groupEnds (s : State) (r : Region) (l : Loc) : State :=
  let size := (r.groupOf l).size
  let s := s.modRegion r.blk fun r => { r with groups := r.groups.filter fun g => g.l != l }
  let free : State := (List.range size).foldl (fun s c => s.freeCtx l c) s
  let cand := (free.seekers l.pkg l.die).filter fun x => (free.placeable l.die x && (free.offers x l.die).contains l)
  let next := if free.binds l.pkg l.die then free.choose l.pkg l.die cand else none
  match free.savedTaker r l, next with
  | some x, some n => if x.blk = r.blk ∨ n.prio ≤ x.prio then free.restoreNow x (some l) else free.passGroup s r n l size
  | some x, none => free.restoreNow x (some l)
  | none, some n => free.passGroup s r n l size
  | none, none => free.consider l.pkg

/-! ### Groups of a failed region (R360, R397) -/

/-- The region whose first segment a group holds preloaded, where the core can pass to it (R397). -/
def State.preloadedFor (free s : State) (g : Group) : Option Region :=
  match (List.range g.size).findSome? fun c => (s.ctxAt g.l c).pre with
  | none => none
  | some b => match free.region? b with
    | none => none
    | some n => if free.binds g.l.pkg g.l.die && free.placeable g.l.die n && (free.offers n g.l.die).contains g.l then some n else none
/-- The contexts of a group whose region has failed are free, or pass to the task that is preloaded (R397). -/
def State.releaseGroup (s : State) (r : Region) (g : Group) : State :=
  let free := g.ctxs.foldl (fun s x => s.freeCtx x.1 x.2) s
  match free.preloadedFor s g with
  | some n => free.passGroup s r n g.l g.size
  | none => free
/-- A failed region holds no group any more. -/
def State.releaseRegion (s : State) (r : Region) : State :=
  (r.groups.foldl (fun s g => s.releaseGroup r g) (s.modRegion r.blk fun r => { r with groups := [] })).consider (paPkg r.blk)

/-- The task of the context in focus ends (R49). It goes on with the next task of its leaf, even where a suspend is pending, and then stops at
that task's entry (R52); or its binding ends. -/
def State.taskEnd (s : State) : State :=
  match s.ctx.bind with
  | none => s
  | some b =>
    let s := s.modCtx fun c => { c with q := c.q.endTask, sys := { c.sys with h := false }, aside := none }
    let s := s.notePend b.blk
    let l := s.focus
    match s.region? b.blk with
    | none => s
    | some r =>
      let r := r.countEnd l s.sub b.dealt
      let s := s.modRegion b.blk fun _ => r
      if r.goesOn l then s.modCtx fun c => c.startTask { b with dealt := 0, deal := none, again := false, reran := false } r.argptr s.cyc
      else
        let s := s.modRegion b.blk fun r => r.modGroup l fun g => { g with gone := s.sub :: g.gone }
        let s := s.modCtx fun c => { c with
          bind := some { b with ended := true, dealt := 0 }
          pipe := { c.pipe with wait := [] }, latch := [] }
        let done := (List.range (r.groupOf l).size).all fun c => match (s.ctxAt l c).bind with | some x => x.ended | none => true
        if done && r.state != 5 && !r.rerun then s.groupEnds r l else s

/-- Operations queued to the engines that a trailer mask names are complete (R50). -/
def Queues.trailerDone (q : Queues) (m : Nat) : Bool :=
  let out (c : Nat) : Bool := q.tlOut.any fun e => e.1 == c
  !(m.testBit 0 && out 0) && !(m.testBit 1 && out 1) &&
  !(m.testBit 2 && ((q.stq.any fun e => match e.eff with | .store .. => true | _ => false) || !q.flagws.isEmpty)) &&
  !(m.testBit 3 && out 2) && !(m.testBit 4 && out 3) && !(m.testBit 5 && out 4)
/-- An overlay swap may be made. -/
def Ctx.swapReady (c : Ctx) : Bool :=
  match c.bind with
  | some b => b.swap != 0 && c.q.trailerDone (match c.half with | some g => g.trailer | none => 0) && c.preDone
  | none => false
/-- Table entries below `n`, each from its number. -/
def freeTab {α : Type} (n : Nat) (f : Nat → α) : Tab α := (List.range n).map fun i => (i, f i)
/-- A loop level of undefined values, numbered from tag `n`. -/
def State.freeLevel (s : State) (n : Nat) : Level :=
  let x (j w : Nat) : Nat := s.free (16 * (32 * n + j) + 10) w
  { trip := x 0 32, bstart := x 1 12, bend := x 2 12, idx := x 3 32
    strides := freeTab 4 fun k => (x (4 + k) 6, BitVec.ofNat 64 (x (8 + k) 64))
    modulo := decide (x 12 1 = 1), tiled := decide (x 13 1 = 1), ii := x 14 4 + 1, st := x 15 4 + 1, mask := BitVec.ofNat 1024 (x 16 1024), tm := x 17 3 }
/-- A context's registers, each undefined (R50): every one a free value of its width (log entry 3). What the model itself counts of commands to
the engines stays. -/
def State.freeRegs (s : State) : Regs :=
  let x (r : RegId) (w : Nat) : Nat := s.free r.tag w
  let y (n j k w : Nat) : Nat := s.free (16 * (8 * n + j) + k) w
  { s := freeTab 64 fun n => BitVec.ofNat 64 (x (.s n) 64)
    p := freeTab 8 fun n => decide (x (.p n) 1 = 1)
    v := freeTab 1024 fun n => BitVec.ofNat 1024 (x (.v false n) 1024)
    w := freeTab 1024 fun n => BitVec.ofNat 1024 (x (.v true n) 1024)
    vk := freeTab 8 fun n => BitVec.ofNat 256 (x (.k false n) 256)
    wk := freeTab 8 fun n => BitVec.ofNat 256 (x (.k true n) 256)
    tm := freeTab 8 fun n => BitVec.ofNat 1024 (x (.tm n) 1024)
    cb := freeTab 16 fun n => { s.cb n with base := y n 0 9 32, ssize := y n 1 9 16, nslot := y n 2 9 16, wp := y n 3 9 32, rp := y n 4 9 32, rpc := y n 5 9 32 }
    hand := freeTab 4 fun n => (List.range 64).map fun i =>
      ⟨BitVec.ofNat 32 (y (64 * n + i) 0 7 32), BitVec.ofNat 32 (y (64 * n + i) 1 7 32), BitVec.ofNat 32 (y (64 * n + i) 2 7 32), decide (y (64 * n + i) 3 7 1 = 1)⟩
    gen := freeTab 4 fun n => ⟨BitVec.ofNat 128 (y n 0 8 128), y n 1 8 4, []⟩
    lvl := freeTab 6 s.freeLevel
    base := x .base 10 % 992, zc := x .zc 32, fmt := BitVec.ofNat 64 (x .fmt 26), fmtq := [] }
/-- A context's system registers, each undefined (R50). H is R49's. -/
def State.freeSys (s : State) : Sys :=
  let x (n w : Nat) : Nat := s.free (16 * n + 14) w
  let word (n : Nat) : Word := BitVec.ofNat 64 (x n 64)
  { flg := freeTab 4 fun n => BitVec.ofNat 6 (x n 6), fresh := []
    fcode := BitVec.ofNat 64 (x 4 16), faddr := word 5, fbundle := word 6, fslot := BitVec.ofNat 64 (x 7 3), fresume := word 8, h := false, fscr0 := word 9, fscr1 := word 10
    watch := freeTab 4 fun n => word (11 + n) &&& 0xFCFFFFFFFFFFFFC0, bke := decide (x 15 1 = 1) }
/-- OVERLAY_SWAP (R50): with another PTROOT the registers are zeroed and tag entries invalid, else they are undefined; the incoming segment
is then fetched unless it was preloaded (R51). -/
def execOverlaySwap (s : State) : Out :=
  .next (match s.ctx.bind with
    | none => s
    | some b =>
      if !s.ctx.swapReady then s
      else
        let arg := match s.region? b.blk with | some r => r.argptr | none => 0
        let keep := s.ctx.pre == some b.blk
        let zero := b.swap == 2
        let f := (s.freeRegs, s.freeSys)
        let s := if zero then s.modCore fun k => k.dropTags s.sub else s
        s.modCtx fun c =>
          let idle := if keep then c.idle else none
          let x := if zero then c.zeroed else { c with regs := f.1, sys := f.2 }
          { (x.startTask { b with swap := 0 } arg (s.cyc + if zero then 256 else 0)) with half := none, idle := idle, fetch := none, pre := none, preBank := none })

/-! ### Preloads (R51, R397) -/

/-- A line of the preload data goes to its bank group, which the header that runs leaves free, or which no task uses any more (R51, R137). -/
def State.preloadLine (s : State) (r : Region) (n m : Nat) : State :=
  let g := r.plgrp % 4
  let again := s.post s.focus s.sub (.preload r.blk)
  let mine := match s.ctx.bind with | some b => b.blk == r.blk | none => false
  let free := (s.lastTask && s.ctx.leavesFree.testBit g) || mine
  if !free || !s.bankIdle (g * 2 ^ 20 + n) then again
  else match s.engLines s.focus 0 44 r.ptroot 3 ((r.plsrc + n) % 2 ^ 56) (min 128 (m - n)) with
    | (_, .wait) => again
    | (s, .failed ..) => s.modCtx fun c => { c with preBank := none }
    | (s, .done b) =>
      let s := (s.localPut none 1 (g * 2 ^ 20 + n) b).modCtx fun c => { c with
        preBank := if n + b.length < m || !mine then some (r.blk, n + b.length, m) else none }
      if n + b.length < m then s.post s.focus s.sub (.preload r.blk) else s
/-- The first segment of the next assignment enters the idle half, and its preload data begins to go to a bank group that the outgoing header
leaves free (R51). A refused header discards the preload (R392, R397). -/
def State.preloadSeg (s : State) (r : Region) : State :=
  if !s.lastTask then s
  else match s.fetchSeg s.focus s.sub r.ptroot r.segptr with
    | (s, .got seg) =>
      let s := s.modCtx fun c => { c with idle := some seg, fetch := none, pre := some r.blk }
      if r.plgrp.testBit 7 ∧ s.ctx.leavesFree.testBit (r.plgrp % 4) ∧ 0 < r.pllen then
        (s.modCtx fun c => { c with preBank := some (r.blk, 0, r.pllen) }).post s.focus s.sub (.preload r.blk)
      else s
    | (s, _) => s
/-- PRELOAD (R51): the segment, then its data line by line. -/
def execPreload (blk : Nat) (s : State) : Out :=
  .next (match s.region? blk with
    | none => s
    | some r => match s.ctx.preBank with
      | some (b, n, m) => if b ≠ blk then s.preloadSeg r else if n < m then s.preloadLine r n m else s
      | none => s.preloadSeg r)

/-! ### Barriers (R56, R312) -/

/-- The stores that the context has released are performed at die and pkg scope alike: each is answered (R56, R159, R312). -/
def Queues.storesOver (q : Queues) : Bool := !(q.stq.any fun e => match e.eff with | .store .. | .scat .. => true | _ => false)
/-- The context has arrived at its barrier: its checkpoint has confirmed, and its released stores are performed. -/
def Ctx.atBarrier (c : Ctx) : Bool :=
  match c.pipe.waits 2 with
  | some w => decide (w.ser ≤ c.pipe.restart.ser) && c.pipe.held.isEmpty && c.q.storesOver
  | none => false
/-- The members of a gang have arrived, each in its group or ended; a lost one has not, and one that runs once more does not (R56, R396). Outside a
gang one context has (R312). -/
def State.arrivals (s : State) (r : Region) : List (Loc × Nat) :=
  let here := (s.ctxsOf r).filter fun x => (s.ctxAt x.1 x.2).atBarrier
  if r.kind = 3 then
    if r.saved.isEmpty && !r.rerun && !r.final && decide (r.ntask ≤ r.ended + (r.groups.filter fun g => !g.counted).length) && (s.ctxsOf r).all fun x => (match (s.ctxAt x.1 x.2).bind with | some b => b.ended | none => true) || here.contains x then here else []
  else here
/-- GANG_BARRIER_COMPLETE (R56): the GBARs of those who have arrived complete. -/
def execGangBarrierComplete (blk : Nat) (s : State) : Out :=
  .next (match s.region? blk with
    | none => s
    | some r => (s.arrivals r).foldl (fun s x => s.onCtx x.1 x.2 fun s => (s.waitDone 2 []).modCtx fun c =>
        { c with bind := c.bind.map fun b => { b with gbars := b.gbars + 1 } }) s)

end Sys2Proof.Machine
end

