-- ==== Sys2Proof/Machine/Policy.lean ====
section
/-! DEFINITION. Completion, faults and their policy, handler entry and return, charges, suspension and resumption (R41, R43, R46, R52 to
R54, R331, R332, R355 to R360, R364 to R369, R390 to R396, R418). -/

namespace Sys2Proof.Machine

/-! ### Completion (R43) -/

/-- Every operation that a region's ended tasks issued on a context has completed. A core restored since has lost its counters. -/
def State.pendOver (s : State) (e : Loc × Nat × Tab Nat) : Bool :=
  let q := (s.ctxAt e.1 e.2.1).q
  (List.range 5).all fun c => decide (tget 0 e.2.2 c ≤ q.doneUpTo c) || decide (tget 0 q.tl c < tget 0 e.2.2 c)
def State.pendDone (s : State) (r : Region) : Bool := r.pend.all s.pendOver
/-- A region completes (R40, R43). -/
def State.completeReady (s : State) (r : Region) : Bool :=
  if r.kind = 1 then (r.state == 1 || r.state == 3) && (s.kids r).all fun k => k.state == 4 && !s.hostOut k.flagOut
  else decide (1 ≤ r.state) && decide (r.state ≤ 3) && r.ended == r.ntask && r.groups.isEmpty && r.saved.isEmpty && s.pendDone r
/-- A root that has ended leaves its die's live roots. -/
def State.rootEnds (s : State) (r : Region) : State :=
  if r.parent = 0 then s.setReserve (r.launch / 16) (r.launch % 16) else s
/-- The region's flag went out between these two states: its parent is evaluated once the host has completed it (R43, R190, R360). -/
def State.flagSent (t s : State) (blk : Nat) : State := t.modRegion blk fun r => { r with flagOut := (s.host.nextTag, t.host.nextTag) }
/-- REGION_COMPLETE (R43): STATE, then the flag, then the parent. -/
def execRegionComplete (blk : Nat) (s : State) : Out :=
  .next (match s.region? blk with
    | none => s
    | some r =>
      if !s.completeReady r then s
      else
        let t := s.setState blk 4
        match t.flagWrite r r.cval with
        | none => s
        | some t => ((t.flagSent s blk).drainUp t.regions.length blk).rootEnds r)

/-! ### Notified failure (R360, R395, R391) -/

/-- A store that a context released is still to be performed at sys scope, one of a copy command among them (R395). -/
def Ctx.storesOut (c : Ctx) : Bool :=
  !c.q.stq.isEmpty || (c.q.flagws.any fun f => f.released) || c.pipe.held.any (·.rel) ||
  c.q.cmds.any fun k => decide (1 ≤ k.stage) && decide (k.kind ≠ 4) && k.dsp == 0
/-- A FAULTED region may be notified: its contexts and those of FAULTED regions below have stopped and their stores are performed; or a
region's children have all ended, one of them FAULTED (R360, R395). -/
def State.notifyReady (s : State) (r : Region) : Bool :=
  !r.flagged &&
  if r.state = 5 then
    (s.below r.blk).all fun x => x.state != 5 ||
      (s.allStopped x && (s.ctxsOf x).all (fun e => !(s.ctxAt e.1 e.2).storesOut) && s.pendDone x)
  else r.kind == 1 && r.state != 0 && r.state != 4 && (s.kids r).all (fun k => k.state == 4 || (k.state == 5 && k.flagged && !s.hostOut k.flagOut)) &&
    (s.kids r).any fun k => k.state == 5
/-- REGION_FAULT_NOTIFY (R360, R395): the block of a parent that fails in turn, the flipped flag, the parent; its contexts are free. The flag of a
tree that was refused goes first (R391). -/
def execRegionFaultNotify (blk : Nat) (s : State) : Out :=
  .next (match s.owed.find? fun r => r.blk == blk, s.region? blk with
    | some r, _ => (match s.flagWrite r r.flipped with | some t => { t with owed := t.owed.erase r } | none => s)
    | none, none => s
    | none, some r =>
      if !s.notifyReady r then s
      else
        let t := s.failOne blk
        match t.flagWrite r r.flipped with
        | none => s
        | some t =>
          ((((t.flagSent s blk).releaseRegion r).modRegion blk fun r => { r with flagged := true }).drainUp t.regions.length blk).rootEnds r)

/-- The context in focus stops: what is withheld is dropped, and it gives up the array if it stops for good (R359, R393). A gang member on a retired
core is then lost (R407). -/
def State.park (s : State) : State :=
  let mark := s.ctx.stopping
  let s := s.rollback
  let s := s.modCore fun k =>
    let k := k.modCtx s.sub fun c => { c with stopping := 3 }
    if mark = 2 then { k with arr := k.arr.leave s.sub } else k
  match s.ctx.bind with | some b => if mark = 4 then s.gangLost b.blk else s | none => s

/-- A P fault of the context in focus (R359, R365): logged at its die, then its deal runs once more, or its fault domain fails
and it stops where it stands. The context has been rolled back. -/
def State.policyFault (s : State) (code w2 : Nat) (w1 : Nat := 0) : State :=
  let l := s.focus
  match s.ctx.bind, s.myRegion with
  | some b, some r =>
    let s := s.logError l.pkg l.die code l.pkg l.die s.sub l.core w1 w2 b.blk
    if r.policy = 2 ∧ !b.reran ∧ r.state ≠ 5 then
      (s.modCore fun k => { k with arr := k.arr.leave s.sub }).modCtx fun c =>
        ({ c with q := c.q.endTask }).startTask { b with again := b.deal.isSome, reran := true } r.argptr s.cyc
    else ((s.failDomain b.blk).modCore fun k => { k with arr := k.arr.leave s.sub }).modCtx fun c => { c with stopping := 3 }
  | _, _ => s

/-- The context in focus gives up what it has not released; its registers and the array stand as they are (R359, R370). -/
def State.cutShort (s : State) : State :=
  let c := s.ctx
  let arr := s.core.arr
  (s.rollback.modCore fun k => { k with arr := arr }).modCtx fun t => { t with
    regs := { c.regs with cb := rollHandles c.regs.cb t.pipe.held t.q.cmds }
    pipe := { t.pipe with ser := c.pipe.ser, infl := c.pipe.infl, undo := [] } }
/-- A machine check found against the context in focus, with its location (R370): it is not rolled back, and goes to the region policy; with it a gang has
lost a member (R396). Word 2 of its entry is the bundle that issue has reached (R365; log entry 41). -/
def State.machineCheck (s : State) (code loc : Nat) : State :=
  let l := s.focus
  let at_ := s.ctx.bundleVa
  let s := (s.modCtx fun c => { c with mchk := none }).cutShort
  match s.ctx.bind, s.myRegion with
  | some b, some r =>
    if r.kind = 3 then
      let s := (s.logError l.pkg l.die code l.pkg l.die s.sub l.core loc at_ b.blk).modCore fun k => { k with arr := k.arr.leave s.sub }
      (s.gangLost b.blk).modCtx fun c => { c with stopping := 3 }
    else s.policyFault code at_ loc
  | _, _ => s.logError l.pkg l.die code l.pkg l.die s.sub l.core loc at_ 0

/-! ### Handler entry and return (R331, R332, R357, R358) -/

/-- The fault registers of R329 for a fault. -/
def Sys.faultRegs (y : Sys) (code faddr bundle slot resume : Nat) : Sys :=
  { y with
    fcode := BitVec.ofNat 64 code, faddr := BitVec.ofNat 64 faddr, fbundle := BitVec.ofNat 64 bundle
    fslot := BitVec.ofNat 64 (slot % 8), fresume := BitVec.ofNat 64 resume }
/-- The handler is entered: the fault registers, FSTAT.H, and issue from the handler's segment once every pipeline is empty. The
program's control state and levels are held aside (R331, R357). A preloaded segment is discarded (R397). -/
def State.enterHandler (s : State) (code faddr bundle slot wait : Nat) : State :=
  let resume := s.resumeVa
  s.modCtx fun c =>
    let h : Ctl := { Ctl.reset with seg := (c.bind.map (·.handler)).getD 0, entry := true }
    { c with
      ctl := h
      drain := true
      pre := none
      idle := if c.pre.isSome then none else c.idle
      aside := some (c.pipe.restart.ctl, c.regs.lvl, c.regs.base)
      sys := { c.sys.faultRegs code faddr bundle slot resume with h := true }
      pipe := { c.pipe with wait := [], restart := { c.pipe.restart with ctl := h, snap := false } }
      notBefore := max c.notBefore (s.cyc + 1 + wait) }

/-- A deferred error that has been delivered is pending no more (R356). -/
def Queues.delivered (q : Queues) (d : Option Nat) : Queues :=
  match d with | some o => { q with deferred := q.deferred.filter fun x => x.ord != o } | none => q
/-- A watch with ONE set is disabled when its match is reported (R333). -/
def Sys.reported (y : Sys) (w : Option Nat) : Sys :=
  match w with
  | some n => if (tget 0 y.watch n).getLsbD 59 then { y with watch := tmod 0 y.watch n fun x => x &&& 0x7FFFFFFFFFFFFFFF } else y
  | none => y

/-- An H fault that no handler takes goes to the region policy (R357, R358): a double fault keeps the first fault's registers, and
word 2 of its log entry is FBUNDLE; with HANDLER 0 the fault registers are set. -/
def State.unhandled (s : State) (code faddr bundle slot : Nat) : State :=
  if s.ctx.sys.h then s.policyFault code s.ctx.sys.fbundle.toNat
  else (s.modSys fun y => y.faultRegs code faddr bundle slot s.resumeVa).policyFault code bundle
/-- The region's handler takes the context's next H fault. -/
def State.handles (s : State) : Bool := !s.ctx.sys.h && ((s.ctx.bind.map (·.handler)).getD 0 != 0)

/-- A fault due is delivered: the context rolls back, and the handler or the region policy takes it (R357, R358, R366, R392). -/
def State.deliverFault (s : State) (f : Found) : State :=
  let n := s.ctx.unwindCycles
  let s : State := (s.modCtx fun c => { c with q := c.q.delivered f.defd, sys := c.sys.reported f.watch }).rollback
  if f.code = 0x0503 then s.policyFault f.code f.bundle
  else if s.handles then s.enterHandler f.code f.faddr f.bundle f.slot n
  else s.unhandled f.code f.faddr f.bundle f.slot

/-- The checkpoint bundle that the context waits for has confirmed, with everything before it released. -/
def Ctx.waitConfirmed (c : Ctx) (w : Wait) : Bool := decide (c.pipe.restart.ser = w.ser) && c.pipe.held.isEmpty
/-- A confirmed checkpoint bundle waits for the answer of an agent, which is never undone (R84). -/
def Pipe.answerDue (p : Pipe) : Bool :=
  p.wait.any fun w => decide (w.ser ≤ p.restart.ser) && (match w.eff with | .atom .. | .deal _ | .gbar | .seqop .. => true | _ => false)
/-- A fault due for report. -/
def Ctx.faultDue (c : Ctx) (now : Nat) : Option Found :=
  match c.pipe.fault with | some f => if f.due ≤ now ∧ !c.pipe.answerDue then some f else none | none => none
/-- The context in focus stops where it is blocked, for its region is FAULTED (R359): it reports nothing more. A gang member that owns the array
goes on to its boundary, and so does one of a gang that runs once more (R396). -/
def State.stopsAtOnce (s : State) : Bool :=
  s.ctx.stopping == 2 && (match s.myRegion with | some r => !r.rerun && !(r.kind == 3 && s.core.arr.owner == some s.sub) | none => true)
/-- The fault that the context in focus reports now. -/
def State.faultNow (s : State) : Option Found := if s.stopsAtOnce then none else s.ctx.faultDue s.cyc
/-- A TRAP or BKPT may enter the handler (R331). -/
def State.trapReady (s : State) : Option (Nat × Nat × Nat × Nat) :=
  match s.ctx.pipe.wait with
  | [w] => match w.eff with
    | .trap code faddr bundle slot => if !s.stopsAtOnce && s.ctx.waitConfirmed w && s.core.pipesEmpty s.sub then some (code, faddr, bundle, slot) else none
    | _ => none
  | _ => none
/-- FAULT_REPORT (R355, R357): a fault due is delivered; a TRAP or BKPT enters the handler, without rollback; a machine check is applied (R370). -/
def execFaultReport (s : State) : Out :=
  .next (match s.faultNow with
    | some f => s.deliverFault f
    | none => match s.trapReady with
      | some (code, faddr, bundle, slot) =>
        if s.handles then s.enterHandler code faddr bundle slot 0
        else (s.modPipe fun p => { p with wait := [] }).unhandled code faddr bundle slot
      | none => match s.ctx.mchk with
        | some (code, loc) => s.machineCheck code loc
        | none => s)

/-- An ERET may return (R332). -/
def State.eretReady (s : State) : Bool :=
  match s.ctx.pipe.wait with
  | [w] => (match w.eff with | .eret => true | _ => false) && s.ctx.waitConfirmed w && s.core.pipesEmpty s.sub
  | _ => false
/-- The return: FSTAT.H is 0, the nest held aside returns, and issue goes on at the restart point. -/
def Ctx.eret (c : Ctx) : Ctx :=
  match c.aside with
  | none => { c with sys := { c.sys with h := false }, pipe := { c.pipe with wait := [] } }
  | some (ctl, lvl, base) =>
    { c with
      ctl := ctl, aside := none, latch := []
      regs := { c.regs with lvl := lvl, base := base }
      sys := { c.sys with h := false }
      pipe := { c.pipe with wait := [], restart := { c.pipe.restart with ctl := ctl } } }

/-- A TASKEND may take effect: confirmed, with every other response of its bundle landed and every store, FLAGW and discarded entry of the task
answered (R84, R373, R398). A TRAP or ERET of the same bundle goes with the task (log entry 53). -/
def State.taskendReady (s : State) : Bool :=
  match s.ctx.pipe.waits 3 with
  | some w => (s.ctx.pipe.wait.all fun w => [3, 6, 7].contains w.eff.kind) && s.ctx.waitConfirmed w && s.ctx.q.flagws.isEmpty && s.ctx.q.entriesBack &&
      !(s.ctx.q.stq.any fun e => match e.eff with | .store .. => true | _ => false)
  | none => false
/-- The task ends, or a failure that is pending is reported against its TASKEND (R356, R373, R398). -/
def State.taskendDone (s : State) : State :=
  match s.ctx.q.firstDeferred fun _ => true with
  | some d => s.modPipe fun p => match p.waits 3 with
    | some w => { p.answered 3 with fault := some ⟨d.code, w.ser, s.cyc, w.slot, w.bundle, d.faddr, none, some d.ord⟩ }
    | none => p
  | none => s.taskEnd

/-- CHECKPOINT_CONFIRM (R80): the oldest checkpoint confirms and its effects are released (R82); an ERET or TASKEND that waited for
its own then takes effect. -/
def execCheckpointConfirm (s : State) : Out :=
  .next (match s.ctx.confirmDue s.cyc with
    | some k => (s.modCtx fun c => c.confirm k).releaseAll 256
    | none =>
      if s.releaseReady then s.releaseAll 256
      else if s.eretReady then s.modCtx Ctx.eret
      else if s.taskendReady then s.taskendDone
      else s)

/-! ### Charges and budgets (R46, R390) -/

/-- Cycles are added to a region and its ancestors. -/
def State.addUsed (s : State) (blk n : Nat) : State := (s.ups blk).foldl (fun s r => s.modRegion r.blk fun r => { r with used := r.used + n }) s
/-- A region out of budget: it and its descendants are FAULTED with its fault domain, and its home die logs it (R390). The preloads of a leaf that
overran by itself are kept (R397). -/
def State.overrun (s : State) (blk : Nat) : State :=
  match s.region? blk with
  | none => s
  | some r =>
    if r.final then s
    else
      let s := s.logRegion (paPkg blk) r.home 0x0501 0 blk
      let s := if r.kind = 1 then s else s.failOne blk true
      ((s.regions.filter fun x => x.fdom == r.fdom) ++ s.below blk).foldl (fun s x => s.failOne x.blk) s
/-- The exhausted region nearest the root. -/
def State.exhausted (s : State) (blk : Nat) : Option Region := (s.ups blk).reverse.find? fun r => decide (r.bcycles ≤ r.used) && !r.final
/-- Cycles that a core has not reported. -/
def Core.charges (k : Core) : Nat := (k.charge.map (·.2)).sum
/-- CYCLE_CHARGE_REPORT (R390). -/
def execCycleChargeReport (s : State) : Out :=
  .next (
    let c := s.core.charge
    let s := s.modCore fun k => { k with charge := [] }
    c.foldl (fun s e =>
      let s := s.addUsed e.1 e.2
      match s.exhausted e.1 with
      | some r => s.overrun r.blk
      | none => s) s)

/-! ### Saving (R52, R53, R393) -/

/-- A parked context has nothing of its engines under way: commands that have started are complete, and answers are back (R52). A CPYC between two
slots, and a CBSET, hold nothing back: they are saved as they stand (DESIGN CHOICE, log entry 62). -/
def Ctx.quiet (c : Ctx) : Bool :=
  c.pipe.infl.isEmpty && c.pipe.held.isEmpty && c.q.ldq.all (·.done) && c.q.gdq.all (·.whole) && c.q.lq.isEmpty && c.q.fiOut.isEmpty &&
  c.q.stq.isEmpty && c.q.dropped.isEmpty && c.q.gDropped.isEmpty && !(c.q.colls.any (·.started)) && !(c.q.flagws.any (·.sent)) &&
  c.q.cmds.all fun k => decide (k.stage ≤ 1) || (decide (k.stage = 2) && decide (3 ≤ k.kind) && k.io == 0 && k.pos == 0 && k.off == 0)
/-- A context of a core can be saved now: it is parked and quiet, its beats have settled and its drains have landed, and a release of the
array has ended (R52, R105, R125). -/
def Core.saveReady (k : Core) (n : Nat) : Bool :=
  let c := k.ctx n
  c.stopping == 3 && c.quiet && k.pipesEmpty n && k.arr.owner != some n && match c.bind with | some b => !b.ended | none => false
/-- Contexts of a region that have not ended. -/
def State.openCtxs (s : State) (r : Region) : List (Loc × Nat) :=
  (s.ctxsOf r).filter fun x => match (s.ctxAt x.1 x.2).bind with | some b => !b.ended | none => false
/-- Operations that ended tasks of other regions issued on a context are complete: they do not go with a saved context (DESIGN CHOICE, log entry 78). -/
def State.othersOver (s : State) (r : Region) (x : Loc × Nat) : Bool :=
  s.regions.all fun y => y.blk == r.blk || (y.pend.filter fun e => e.1 == x.1 && e.2.1 == x.2).all s.pendOver
/-- The contexts saved next: a gang together, a group of a SHARED leaf together, else one by one (R52, R55). Slots go in the order of saving, contexts
that are ready together in the order of their groups (DESIGN CHOICE, log entry 72). -/
def State.saveNext (s : State) (r : Region) : List (Loc × Nat) :=
  let ready (x : Loc × Nat) : Bool := (s.coreAt x.1).saveReady x.2 && s.othersOver r x
  let o := s.openCtxs r
  if r.kind = 3 then (if o.all ready then o else [])
  else if r.shared then
    match r.groups.find? fun g => let m := o.filter fun x => decide (x.1 = g.l); !m.isEmpty && m.all ready with
    | some g => o.filter fun x => decide (x.1 = g.l)
    | none => []
  else (o.filter ready).take 1

/-- Bytes of a section in Torkel's own layout, which the manual does not give (log entry 11). -/
def State.privateBytes (s : State) (o n : Nat) : List Byte := (rangeFrom o n).map fun a => BitVec.ofNat 8 (Config.free s.draw (2 ^ 54 + a))
/-- Words of 16 bytes, padded to a count. -/
def padWords (n : Nat) (ws : List (BitVec 128)) : List Byte := leBytes (16 * n) (ofLanes 128 (ws.map (·.toNat)))
/-- A handle's 64 bytes (R138). -/
def CBuf.record (b : CBuf) : List Byte :=
  leBytes 4 b.base ++ leBytes 2 b.ssize ++ leBytes 2 b.nslot ++ leBytes 4 b.wp ++ leBytes 4 b.rp ++ leBytes 4 b.rpc ++ leBytes 44 0
/-- An entry's 16 bytes (R191). -/
def HEntry.record (e : HEntry) : List Byte :=
  leBytes 4 e.key.toNat ++ leBytes 4 e.index.toNat ++ leBytes 4 e.weight.toNat ++ leBytes 4 (if e.valid then 1 else 0)
/-- The sections of a save slot with a layout: offset and bytes. -/
def State.saveImage (s : State) (k : Core) (c : Ctx) (mask resume : Nat) : List (Nat × List Byte) :=
  let r := c.regs
  let cat (n : Nat) (f : Nat → List Byte) : List Byte := (List.range n).flatMap f
  [(0, cat 1024 fun i => leBytes 128 (tget 0 r.v i).toNat), (0x20000, cat 1024 fun i => leBytes 128 (tget 0 r.w i).toNat),
   (0x40000, leBytes 8 resume ++ leBytes 8 (r.fmtAt c.pipe.ser).toNat ++ cat 5 fun i => leBytes 8 (tget 0 c.q.tl i)),
   (0x40038, s.privateBytes 0x40038 (1024 - 56)),
   (0x40400, cat 64 fun i => leBytes 8 (tget 0 r.s i).toNat),
   (0x40600, (cat 8 fun i => leBytes 32 (if i = 0 then 2 ^ 256 - 1 else (tget 0 r.vk i).toNat)) ++ cat 8 fun i => leBytes 32 (if i = 0 then 2 ^ 256 - 1 else (tget 0 r.wk i).toNat)),
   (0x40800, cat 8 fun i => leBytes 128 (if i = 0 then 2 ^ 1024 - 1 else (tget 0 r.tm i).toNat)),
   (0x40C00, cat 16 fun i => (tget CBuf.reset r.cb i).record),
   (0x41000, cat 4 fun i => (handOf (tget [] r.hand i)).flatMap HEntry.record),
   (0x42000, cat 4 fun i => (tget Gen.reset r.gen i).record),
   (0x42080, leBytes 128 0), (0x42100, cat 2 fun i => padWords 16 (tget Fo.reset c.q.fo i).build),
   (0x42300, cat 2 fun i => padWords 64 ((tget Fi.reset c.q.fi i).words.map (·.word))),
   (0x42B00, leBytes 1280 0), (0x43000, cat 32 fun i => leBytes 128 (leNat (nth default c.q.ldq i).data)),
   (0x44000, cat 64 fun i => let e : GEnt := nth default c.q.gdq i; leBytes 128 (ofLanes (8 * e.e) ((List.range (128 / max e.e 1)).map fun l => leNat (tget [] e.lanes l)))),
   (0x46000, s.privateBytes 0x46000 0x2000)] ++
  (saveGroups mask).zipIdx.map (fun g => (0x48000 + g.2 * 2 ^ 20, Memory.read k.spad (g.1 * 2 ^ 20) (2 ^ 20))) ++
  (if mask.testBit 4 then [(0x48000 + (saveGroups mask).length * 2 ^ 20, Memory.read k.accm 0 (2 ^ 20))] else [])

/-- The first slot of a region's pool that holds no saved context (R53). -/
def Region.freeSlot (r : Region) : Nat :=
  ((List.range (r.saved.length + 1)).find? fun n => !(r.saved.any fun v => v.slot == n)).getD 0
/-- One context is saved in the next slot of the pool, and its hardware context is free of all that was saved; its timeline counters stand (R50,
R53). -/
def State.saveOne (s : State) (r : Region) (x : Loc × Nat) : State :=
  let s := s.onCtx x.1 x.2 fun s =>
    let s := (saveGroups r.savemask).foldl (fun s g => s.readWords s.sub 2 (g * 2 ^ 20) (2 ^ 20) false) s
    if r.savemask.testBit 4 then s.readWords s.sub 3 0 (2 ^ 20) false else s
  if (s.ctxAt x.1 x.2).mchk.isSome then s else
  let k := s.coreAt x.1
  let c := k.ctx x.2
  let r := (s.region? r.blk).getD r
  let n := r.freeSlot
  let base := r.saveptr + n * slotSize r.savemask
  let resume := State.resumeVa { s with focus := x.1, sub := x.2 }
  let s := (s.saveImage k c r.savemask resume).foldl (fun s e => s.unitPut ⟨x.1.pkg, x.1.die, 0⟩ 44 (base + e.1) e.2) s
  ((s.freeCtx x.1 x.2).modCtxAt x.1 x.2 fun c => c.onQ fun q => { Queues.reset with nextId := q.nextId, tl := q.tl }).modRegion r.blk fun r =>
    { r with saved := r.saved ++ [⟨n, r.era, x.2, r.groupOf x.1, c, resume, false⟩] }
/-- Groups whose contexts have all left or ended leave their region. -/
def State.dropGroups (s : State) (blk : Nat) : State :=
  match s.region? blk with
  | none => s
  | some r =>
    let gone := r.groups.filter fun g => g.ctxs.all fun x => match (s.ctxAt x.1 x.2).bind with | some b => b.blk != blk || b.ended | none => true
    let s := gone.foldl (fun s g => g.ctxs.foldl (fun s x =>
      match (s.ctxAt x.1 x.2).bind with | some b => if b.blk = blk then s.freeCtx x.1 x.2 else s | none => s) s) s
    (s.modRegion blk fun r => { r with groups := r.groups.filter fun g => !(gone.any fun y => decide (y.l = g.l)) }).consider (paPkg blk)
/-- A region under suspension that has nothing left to save. -/
def State.allSaved (s : State) (r : Region) : Bool :=
  r.suspending && (s.openCtxs r).isEmpty && (r.kind != 1 || (s.below r.blk).all fun x => x.blk == r.blk || !x.suspending)
/-- A suspension may go on. -/
def State.saveReady (s : State) (r : Region) : Bool := r.suspending && (!(s.saveNext r).isEmpty || s.allSaved r)
/-- CONTEXT_SAVE (R53): contexts that are ready are saved; with none left the region is SUSPENDED, and a resume that was held applies. -/
def execContextSave (s : State) : Out :=
  .next (match s.regions.find? s.saveReady with
    | none => s
    | some r =>
      let s := ((s.saveNext r).foldl (fun s x => s.saveOne r x) s).dropGroups r.blk
      match s.region? r.blk with
      | none => s
      | some r =>
        if s.allSaved r then
          let s := (s.modRegion r.blk fun r => { r with suspending := false }).setState r.blk 6
          if r.resumeHeld then s.resumeNow r.blk else s
        else s)

end Sys2Proof.Machine
end

