-- ==== Sys2Proof/Machine/Units.lean ====
section
/-! DEFINITION. Units of a die: the walker and TLB invalidation, page moves and row repair, CXL ports, the power limit, the cipher and
sequence units, and the host port (R23, R147, R151, R152, R187 to R189, R197 to R204, R379, R382, R411). -/

namespace Sys2Proof.Machine

/-! ### The walker (R147, R152) -/

/-- The contexts of a die. -/
def dieCtxs (p d : Nat) : List (Loc × Nat) := (List.range 20).flatMap fun c => (List.range 4).map fun x => ((⟨p, d, c⟩ : Loc), x)
/-- Queues of the focus die that waited for a translation go on. -/
def State.serveWaiters (s : State) : State :=
  ((dieCtxs s.focus.pkg s.focus.die).filter fun x => (s.ctxAt x.1 x.2).live).foldl
    (fun s x => s.onCtx x.1 x.2 fun s => s.sendLoads.storeSend) s
/-- PAGE_WALK_COMPLETE (R147, R152): the walk serves every miss in its page through the die TLB, or fails the accesses that wait for it. -/
def execPageWalkComplete (root va : Nat) (s : State) : Out :=
  .next (
    if !s.die.walks.contains (root, va / 2 ^ 16) then s
    else
      let done (sz : Nat) (s : State) : State := s.modDie fun d =>
        { d with walks := d.walks.filter fun w => !(w.1 == root && w.2 * 2 ^ 16 / 2 ^ sz == va / 2 ^ sz) }
      match s.walk s.focus root va with
      | .ok (sz, pte) =>
        ((done sz s).modDie fun d => { d with tlb := tlbAdd 16384 d.tlb ⟨root, va / 2 ^ sz, sz, pte, none⟩ }).serveWaiters
      | .error (0, _) => s.post s.focus 0 (.pageWalkComplete root va)
      | .error err =>
        let e : TlbEnt := ⟨root, va / 2 ^ 16, 16, 0, some (err.1, 0)⟩
        let s := (done 16 s).logWalk { s.focus with core := 20 } err
        ((s.modDie fun d => { d with tlb := e :: d.tlb }).serveWaiters).modDie fun d => { d with tlb := d.tlb.filter (· != e) })

/-! ### TLB invalidation (R151) -/

/-- Accesses of a die that hold a translation: requests not yet answered, and work whose addresses were translated ahead. -/
def State.translated (s : State) (p d : Nat) : List (Nat × Nat × Nat × Nat) :=
  let sent := (s.dieAt p d).src.flatMap fun r => (r.2.sent.map (·.1) ++ r.2.redir.map (·.2)).map fun e => (e.agent, e.id, e.sctx, e.tag)
  let mine (x : Loc × Nat) : List (Nat × Nat × Nat × Nat) :=
    let c := s.ctxAt x.1 x.2
    let k := 4 * x.1.core + x.2
    let pack (e : Eff) : List (Nat × Nat × Nat × Nat) := match e with | .packet _ n .. => [(64, k, n, 0)] | _ => []
    (c.pipe.held.flatMap fun h => pack h.eff) ++ ((c.q.stq.filter fun e => !e.sent).flatMap fun e => pack e.eff) ++
    ((c.q.fo.filter fun f => !f.2.build.isEmpty).map fun f => (64, k, f.2.num, 0)) ++
    (c.q.lq.filterMap fun i => match i.kind with | .fi .. => some (65, k, i.id, 0) | _ => none) ++
    ((c.q.colls.filter (·.started)).map fun o => (66, k, o.num, 0))
  sent ++ (dieCtxs p d).flatMap mine
/-- A translation that a TLBINV word names. -/
def invMatches (w : Word) (e : TlbEnt) : Bool := w.getLsbD 0 || e.root == wbits w 55 13 * 2 ^ 13
/-- TLBINV (R151): matching translations of the die TLB and of every core TLB go; a walk in progress reads its tables anew when it
completes. -/
def execTlbinv (w : Word) (s : State) : Out :=
  .next (
    if s.die.regs.tlbq.head? ≠ some w then s
    else
      let p := s.focus.pkg
      let d := s.focus.die
      let busy := s.translated p d
      let s := s.modDie fun x => { x with tlb := x.tlb.filter fun e => !invMatches w e, tlbwait := busy }
      let s := (List.range 20).foldl (fun s c => s.modCoreAt ⟨p, d, c⟩ fun k => { k with tlb := k.tlb.filter fun e => !invMatches w e }) s
      s.post ⟨p, d, 0⟩ 0 .tlbInvalidationComplete)
/-- TLB_INVALIDATION_COMPLETE (R151): no access under the old translations is left; a queued invalidation then begins. -/
def execTlbInvalidationComplete (s : State) : Out :=
  .next (
    let p := s.focus.pkg
    let d := s.focus.die
    if s.die.regs.tlbq.isEmpty then s
    else
      let busy := s.translated p d
      if s.die.tlbwait.any busy.contains then s.post ⟨p, d, 0⟩ 0 .tlbInvalidationComplete
      else
        let s := s.modDie fun x => { x with regs := { x.regs with tlbq := x.regs.tlbq.drop 1 }, tlbwait := [] }
        match s.die.regs.tlbq with
        | w :: _ => s.post ⟨p, d, 0⟩ 0 (.tlbinv w)
        | [] => s)

/-! ### Page moves (R376, R379) -/

/-- Bytes that firmware reads and writes at a physical address of its package, past the rules for programs (R413). -/
def State.fwBytes (s : State) (pa n : Nat) : List Byte := Memory.read (s.dieAt (paPkg pa) (paStn pa)).store.mem (paOff pa) n
def State.fwPut (s : State) (pa : Nat) (bs : List Byte) : State :=
  s.modDieAt (paPkg pa) (paStn pa) fun d => { d with store := d.store.put (decide (paStn pa ≤ 7)) true (paOff pa) bs }
/-- The place of a page's forward record at the focus die, if forwarding is on. -/
def State.recordAt (s : State) (pn : Nat) : Option Nat :=
  let w := s.die.regs.fwdctl
  if wbits w 7 0 = 0 then none else some (wbits w 55 12 * 2 ^ 12 + 16 * (pn % (64 * wbits w 7 0)))
/-- A 64 KiB page with the check state of its sectors, copied. -/
def State.copyPage (s : State) (src dst : Nat) : State :=
  let a := (s.dieAt (paPkg src) (paStn src)).store
  let so := paOff src
  let dO := paOff dst
  let moved (l : List Nat) : List Nat := (l.filter fun x => decide (so / 64 ≤ x) && decide (x < so / 64 + 1024)).map fun x => x - so / 64 + dO / 64
  let keep (l : List Nat) : List Nat := l.filter fun x => !(decide (dO / 64 ≤ x) && decide (x < dO / 64 + 1024))
  s.modDieAt (paPkg dst) (paStn dst) fun d => { d with store := {
    mem := Memory.write d.store.mem dO ((rangeFrom so 65536).map a.byte)
    plain := keep d.store.plain ++ (if paStn dst ≤ 7 then moved a.plain else [])
    poison := keep d.store.poison ++ moved a.poison
    dead := keep d.store.dead ++ moved a.dead
    soft := keep d.store.soft
    bad := keep d.store.bad ++ moved a.bad
    lost := d.store.lost.flatMap (cutRange dO 65536) } }
/-- Requests for a page that its home has accepted and not yet applied: those of a page of second tier stand at compute die 0 (R168). -/
def State.pageBusy (s : State) (pn : Nat) : Bool :=
  let pa := mkPa s.focus.pkg s.focus.die (pn * 2 ^ 16)
  let (p, d, _) := atomicEngine pa
  (s.dieAt p d).queued.any fun q => bits (partPlace q).1 55 16 == bits pa 55 16 || bits q.dest 55 16 == bits pa 55 16
/-- PAGE_MOVE (R379): the record is held, accepted requests are applied, the page is copied, and the record names the new place. `new` is
the new place's address bits [55:16]. A new place that the die does not reach, or whose die is not READY, takes nothing (R25, R386). -/
def execPageMove (pn new kind : Nat) (s : State) : Out :=
  .next (match s.recordAt pn with
    | none => s
    | some at_ =>
      let old := mkPa s.focus.pkg s.focus.die (pn * 2 ^ 16)
      if s.regionKind (new * 2 ^ 16) ≠ some (kind - 1) ∨ kind = 0 ∨ 2 < kind ∨ s.unitRoute s.focus (new * 2 ^ 16) ≠ 0 then s
      else
        let hold := s.fwPut at_ (leBytes 8 (pn * 2 ^ 16 + 3) ++ leBytes 8 (new * 2 ^ 16 + kind))
        if s.pageBusy pn then hold.post s.focus 0 (.pageMove pn new kind)
        else (hold.copyPage old (new * 2 ^ 16)).fwPut at_ (leBytes 8 (pn * 2 ^ 16 + 1) ++ leBytes 8 (new * 2 ^ 16 + kind)))
/-- Firmware holds the page of a row while it repairs the row: no page has bytes in it where forwarding is off, the page has moved away, or its
place in the table names another page (R411; log entry 45). The record's place, and whether the hold has begun. -/
def State.rowHold (s : State) (row : Nat) : Option (Nat × Bool) :=
  let pn := row / 2 ^ 16
  match s.recordAt pn with
  | none => none
  | some at_ =>
    let w := leNat (s.fwBytes at_ 8)
    if !bit w 0 then some (at_, false) else if bits w 47 16 = pn ∧ bit w 1 then some (at_, true) else none
/-- SPARE_ROW_REPAIR (R411): the row's page is held until the requests that its home has accepted are applied; the row's content, check values and
poison stay as they are in the spare, and the hold ends with V = 0. With no spare row left in its bank the row is logged and nothing is
repaired. -/
def execSpareRowRepair (row : Nat) (s : State) : Out :=
  .next (
    let l := s.focus
    if Config.hasSpare l.pkg l.die row s.die.spares then
      let repair (s : State) : State := s.modDie fun d => { d with spares := row :: d.spares }
      match s.rowHold row with
      | none => repair s
      | some (at_, held) =>
        let pn := row / 2 ^ 16
        let s := if held then s else s.fwPut at_ (leBytes 8 (pn * 2 ^ 16 + 3) ++ leBytes 8 0)
        if s.pageBusy pn then s.post l 0 (.spareRowRepair row) else (repair s).fwPut at_ (leBytes 16 0)
    else s.logError l.pkg l.die 0x0305 l.pkg l.die 0 42 (mkPa l.pkg l.die row) 0 0)

/-! ### CXL ports and the power limit (R23, R382) -/

/-- An answer of a port that is still on its way when the port goes down becomes AUX 0x06, a load's without its data; whether it was sent from the port
before that is open (R382). -/
def Instr.portLost (p d port : Nat) (open_ : Bool) (i : Instr) : Instr :=
  let f (pk : Packet) : Packet :=
    if open_ && paPkg pk.dest == p && paStn pk.dest == d && paOff pk.dest < 2 ^ 44 && bits (paOff pk.dest) 43 41 == port && pk.aux == 0 then
      { pk with aux := 6, size := 0, data := [] } else pk
  match i with
  | .loadresp pk => .loadresp (f pk)
  | .atomresp pk => .atomresp (f pk)
  | .ack pk => .ack (f pk)
  | i => i
/-- CXL_PORT_DOWN (R382). -/
def execCxlPortDown (port : Nat) (s : State) : Out :=
  .next (if port < 8 ∧ 8 ≤ s.focus.die then
    let t := s.modDie fun d => { d with regs := { d.regs with
      portUp := ((List.range 8).filter fun i => d.regs.portUp.testBit i && i != port).foldl (fun x i => x + 2 ^ i) 0
      portDown := d.regs.portDown ||| 2 ^ port } }
    { t with todo := t.todo.zipIdx.map fun e =>
        { e.1 with i := Instr.portLost s.focus.pkg s.focus.die port (decide (s.free (2 ^ 59 + e.2) 1 = 1)) e.1.i } }
  else s)
/-- CXL_PORT_UP (R382): the port is up again; whether its device lost its content with its power, and then what each byte holds, is open. -/
def execCxlPortUp (port : Nat) (s : State) : Out :=
  .next (if port < 8 ∧ 8 ≤ s.focus.die then s.modDie fun d => { d with
    regs := { d.regs with portUp := d.regs.portUp ||| 2 ^ port }
    store := if s.free (2 ^ 58 + port) 1 = 1 then d.store.lose (port * 2 ^ 41) ((port + 1) * 2 ^ 41) s.draw else d.store } else s)
/-- POWER_LIMIT_REPORT (R23): cores of the die issue in at most num of den cycles. -/
def execPowerLimitReport (num den : Nat) (s : State) : Out :=
  .next (if 0 < num ∧ num ≤ den then s.modDie fun d => { d with limit := (num, den) } else s)

/-! ### The cipher units (R196, R197, R402) -/

/-- The next counter of a generator register whose block is not held ahead, among the four from its own. -/
def Gen.missing (g : Gen) : Option (BitVec 128) :=
  ((List.range 4).map fun i => g.ctr + BitVec.ofNat 128 i).find? fun c => !(g.look.any fun b => b.1 == g.slot && b.2.1 == c)
/-- CIPHER_BLOCK_READY (R197): a block of AES-256 under the slot's key; none for an empty slot (R402). -/
def execCipherBlockReady (g : Nat) (s : State) : Out :=
  .next (
    let r := s.gen g
    match s.die.key r.slot, r.missing with
    | some k, some c => s.modRegs fun x => { x with gen := Sys2Proof.Machine.tset x.gen g { r with look := r.look ++ [(r.slot, c, cipherBlock k c)] } }
    | _, _ => s)

/-! ### The sequence unit (R198 to R204, R399 to R401) -/

/-- A sequence descriptor (R198). -/
structure SeqDesc where
  g : Nat
  p : Nat
  epoch : Nat
  chmask : Nat
  pgtok : Nat
  kvrow : Nat
  kvpt : Nat
  toks : Nat
  state : Nat
  snap : Nat
  snapsz : Nat
  fring : Nat
  fdepth : Nat
  frsize : Nat
  fhead : Nat
  ftail : Nat
  fstamp : Nat
  chain : List (Nat × Nat)
  deriving DecidableEq, Repr

/-- A descriptor's 256 bytes. -/
def parseDesc (b : List Byte) : SeqDesc :=
  let f := fieldOf b
  ⟨f 0 8, f 8 8, f 16 4, f 20 2, f 22 2, f 24 4, f 32 8, f 40 8, f 48 8, f 56 8, f 64 4, f 72 8, f 80 4, f 84 4, f 88 4, f 92 4, f 96 8,
    (List.range 16).map fun c => (f (128 + 8 * c) 4, f (132 + 8 * c) 4)⟩
/-- The unit's own fields, by offset. -/
def SeqDesc.own (d : SeqDesc) : List (Nat × List Byte) :=
  [(0, leBytes 8 d.g ++ leBytes 8 d.p ++ leBytes 4 d.epoch ++ leBytes 2 d.chmask), (88, leBytes 4 d.fhead), (96, leBytes 8 d.fstamp),
   (128, d.chain.flatMap fun c => leBytes 4 c.1 ++ leBytes 4 c.2)]
def SeqDesc.cap (d : SeqDesc) : Nat := 256 * d.pgtok
def SeqDesc.tokVa (d : SeqDesc) (row x : Nat) : Nat := d.toks + row * 1024 * d.pgtok + 4 * x
def SeqDesc.entVa (d : SeqDesc) (row j : Nat) : Nat := d.kvpt + (row * 256 + j) * 8
def SeqDesc.isLive (d : SeqDesc) (c : Nat) : Bool := d.chmask.testBit c
def SeqDesc.fork (d : SeqDesc) (c : Nat) : Nat := (nth (0, 0) d.chain c).1
def SeqDesc.len (d : SeqDesc) (c : Nat) : Nat := (nth (0, 0) d.chain c).2
/-- The ticket operand is the current ticket (R202, R324). -/
def SeqDesc.ticket (d : SeqDesc) (tk : Nat) : Bool := decide (tk / 2 ^ 32 = d.epoch) && decide (tk % 2 ^ 30 = d.g % 2 ^ 30)
/-- The result word (R202). -/
def SeqDesc.word (d : SeqDesc) (status : Nat) : Word := BitVec.ofNat 64 (d.epoch % 2 ^ 32 * 2 ^ 32 + status * 2 ^ 30 + d.g % 2 ^ 30)

/-- What an operation writes, in the order of R202 (a flag marks STATE and KVPT), the descriptor after it, its fault, its status,
and the virtual addresses of the pages that it exchanges between rows. -/
structure SeqPlan where
  writes : List (Nat × List Byte × Bool)
  desc : SeqDesc
  code : Nat
  status : Nat
  swapped : List Nat := []

/-- Nothing but a fault or a status. -/
def SeqDesc.only (d : SeqDesc) (code status : Nat) : SeqPlan := { writes := [], desc := d, code := code, status := status }

/-- A read whose failure or wait ends the operation. -/
def Eng.andThen {α β : Type} (r : State × Eng α) (f : State → α → State × Eng β) : State × Eng β :=
  match r with
  | (s, .done x) => f s x
  | (s, .failed c va) => (s, .failed c va)
  | (s, .wait) => (s, .wait)

/-- The unit reads bytes. -/
def State.unitBytes (s : State) (u : UnitReq) (va n : Nat) : State × Eng (List Byte) :=
  s.engLines { s.focus with core := 20 } u.c 41 u.root (n / 64 + 2) (va % 2 ^ 56) n

/-- SQTRUNC's effect on the descriptor (R203). -/
def SeqDesc.cut (d : SeqDesc) (x : Nat) : SeqDesc :=
  let dead := (List.range 16).filter fun c => d.isLive c && decide (x ≤ d.fork c)
  { d with
    g := min d.g x
    epoch := (d.epoch + 1) % 2 ^ 32
    chmask := ((List.range 16).filter fun c => d.isLive c && !dead.contains c).foldl (fun m c => m + 2 ^ c) 0
    chain := d.chain.zipIdx.map fun e => if d.isLive e.2 && !dead.contains e.2 then (e.1.1, min e.1.2 (x - e.1.1)) else e.1 }
/-- A truncation to x: the restore of R200 when it cuts, and the descriptor. -/
def State.seqTrunc (s : State) (u : UnitReq) (d : SeqDesc) (x : Nat) : State × Eng SeqPlan :=
  if x < d.g then
    Eng.andThen (s.unitBytes u (d.snap + x % 64 * d.snapsz) d.snapsz) fun s b =>
      if fieldOf b 0 8 ≠ x then (s, .done (d.only 0x0603 0)) else (s, .done { writes := [(d.state, b.drop 8, true)], desc := d.cut x, code := 0, status := 0 })
  else (s, .done { writes := [], desc := d.cut x, code := 0, status := 0 })

/-- SQFORK (R203). -/
def State.seqFork (s : State) (u : UnitReq) (d : SeqDesc) (c : Nat) : State × Eng SeqPlan :=
  if d.isLive c then (s, .done (d.only 0x0602 0))
  else
    let d' := { d with chmask := d.chmask + 2 ^ c, chain := modNth d.chain c fun _ => (d.g % 2 ^ 32, 0) }
    let n := d.g % d.pgtok * d.kvrow
    let j := d.g / d.pgtok
    if n = 0 then (s, .done { writes := [], desc := d', code := 0, status := 0 })
    else
      Eng.andThen (s.unitBytes u (d.entVa 0 j) 8) fun s a =>
      Eng.andThen (s.unitBytes u (d.entVa (c + 1) j) 8) fun s b =>
      Eng.andThen (s.unitBytes u (leNat a) n) fun s data => (s, .done { writes := [(leNat b, data, false)], desc := d', code := 0, status := 0 })
/-- SQAPP (R203). -/
def seqApp (d : SeqDesc) (c tok : Nat) : SeqPlan :=
  if c ≠ 16 ∧ !d.isLive c then d.only 0x0604 0
  else
    let x := if c = 16 then d.g else d.fork c + d.len c
    if d.cap ≤ x then d.only 0x0602 0
    else
      { writes := [(d.tokVa (if c = 16 then 0 else c + 1) x, leBytes 4 tok, false)], code := 0, status := 0
        desc := if c = 16 then { d with g := d.g + 1, chmask := 0 } else { d with chain := modNth d.chain c fun e => (e.1, (e.2 + 1) % 2 ^ 32) } }
/-- KVPT entries of main and of a chain, exchanged. -/
def State.seqSwap (s : State) (u : UnitReq) (d : SeqDesc) (c : Nat) : List Nat → State × Eng (List (Nat × List Byte × Bool))
  | [] => (s, .done [])
  | j :: t =>
    Eng.andThen (s.unitBytes u (d.entVa 0 j) 8) fun s a =>
    Eng.andThen (s.unitBytes u (d.entVa (c + 1) j) 8) fun s b =>
    Eng.andThen (s.seqSwap u d c t) fun s r => (s, .done ((d.entVa 0 j, b, true) :: (d.entVa (c + 1) j, a, true) :: r))
/-- SQCOMMIT (R203). -/
def State.seqCommit (s : State) (u : UnitReq) (d : SeqDesc) (c n : Nat) : State × Eng SeqPlan :=
  if !d.isLive c ∨ d.fork c ≠ d.g ∨ d.len c < n then (s, .done (d.only 0x0604 0))
  else
    let d' := { d with g := d.g + n, chmask := 0 }
    if n = 0 then (s, .done { writes := [], desc := d', code := 0, status := 0 })
    else
      let js := rangeFrom (d.g / d.pgtok) ((d.g + n - 1) / d.pgtok + 1 - d.g / d.pgtok)
      Eng.andThen (s.unitBytes u (d.tokVa (c + 1) d.g) (4 * n)) fun s toks =>
      Eng.andThen (s.seqSwap u d c js) fun s sw => (s, .done { writes := (d.tokVa 0 d.g, toks, false) :: sw, desc := d', code := 0, status := 0, swapped := sw.map fun w => leNat w.2.1 })
/-- SQFRAME (R203, R399): a consumed frame that is not applied moves FHEAD alone. -/
def State.seqFrame (s : State) (u : UnitReq) (d : SeqDesc) : State × Eng SeqPlan :=
  if d.fhead = d.ftail then (s, .done (d.only 0 2))
  else
    let slot := d.fring + d.fhead % d.fdepth * d.frsize
    let taken := { d with fhead := (d.fhead + 1) % 2 ^ 32 }
    Eng.andThen (s.unitBytes u slot 16) fun s h =>
    let m := fieldOf h 8 4
    if fieldOf h 0 8 < d.p then (s, .done { writes := [], desc := taken, code := 0x0601, status := 0 })
    else
      let x := min (fieldOf h 0 8) d.g
      if d.frsize < 16 + 4 * m ∨ d.cap < x + m then (s, .done { writes := [], desc := taken, code := 0x0602, status := 0 })
      else
        Eng.andThen (s.unitBytes u (slot + 16) (4 * m)) fun s toks =>
        Eng.andThen (s.seqTrunc u taken x) fun s t =>
        if t.code ≠ 0 then (s, .done (d.only t.code 0))
        else (s, .done { writes := (if m = 0 then [] else [(d.tokVa 0 x, toks, false)]) ++ t.writes, desc := { t.desc with chmask := 0, g := x + m, fstamp := x }, code := 0, status := 0 })
/-- An operation's plan: the ticket goes before every other condition (R202). -/
def State.seqPlan (s : State) (u : UnitReq) (d : SeqDesc) (op c : Nat) (x y : Word) : State × Eng SeqPlan :=
  if op ≤ 2 ∧ !d.ticket x.toNat then (s, .done (d.only 0 1))
  else match op with
  | 0 => s.seqFork u d c
  | 1 => (s, .done (seqApp d c (y.toNat % 2 ^ 32)))
  | 2 => s.seqCommit u d c y.toNat
  | 3 => if x.toNat < d.p then (s, .done (d.only 0x0604 0)) else s.seqTrunc u d x.toNat
  | 4 => (s, .done (if d.g < d.p + x.toNat then d.only 0x0604 0 else { writes := [], desc := { d with p := d.p + x.toNat }, code := 0, status := 0 }))
  | _ => s.seqFrame u d

/-- A write cut into lines of 64 bytes, each with the whole object that is undefined if its writing fails: address and length, 0 for none. -/
def cutWrite (mark : Nat × Nat) : Nat → Nat → List Byte → List (Nat × List Byte × Nat × Nat)
  | 0, _, _ => []
  | n + 1, va, bs =>
    if bs.isEmpty then []
    else
      let k := 64 - va % 64
      (va % 2 ^ 56, bs.take k, mark) :: cutWrite mark n (va + k) (bs.drop k)
/-- Every address is translated before anything is written (R202). -/
def State.seqPlaces (s : State) (u : UnitReq) : List (Nat × List Byte × Nat × Nat) → State × Eng (List (Nat × Nat × Nat × List Byte × Nat × Nat))
  | [] => (s, .done [])
  | w :: t =>
    match s.translateNow { s.focus with core := 20 } u.root w.1 1 with
    | (s, .fail code) => (s, .failed code w.1)
    | (s, .miss) => (s, .wait)
    | (s, .ok pa pte) => Eng.andThen (s.seqPlaces u t) fun s r => (s, .done ((w.1, pa, pte, w.2) :: r))
/-- Undefined bytes for an address and those after it. -/
def State.lostBytes (s : State) (a n : Nat) : List Byte := (rangeFrom a n).map fun x => BitVec.ofNat 8 (Config.free s.draw (2 ^ 55 + x))
/-- The place of an address behind the forward records of its page, whether it is in reach or not (R377). -/
def State.followed (s : State) (pa : Nat) : Nat → Nat
  | 0 => pa
  | n + 1 => match s.forward pa with
    | .ok (some (w0, w1)) => if bit w0 1 then pa else s.followed (bits w1 55 16 * 2 ^ 16 + pa % 2 ^ 16) n
    | _ => pa
/-- Bytes at a physical address become undefined. -/
def State.scramble (s : State) (pa n : Nat) : State :=
  let pa := s.followed pa 5
  let b := s.lostBytes (paOff pa) n
  if s.regionKind pa = some 2 then { s with host := { s.host with mem := Memory.write s.host.mem (paOff pa - 0x400000000000) b } }
  else s.modDieAt (paPkg pa) (paStn pa) fun d => { d with store := { d.store with mem := Memory.write d.store.mem (paOff pa) b } }
/-- The lines of an object become undefined, wherever each of them lies. -/
def State.scrambleAll (s : State) (root : Nat) : Nat → Nat → Nat → State
  | 0, _, _ => s
  | k + 1, va, n =>
    if n = 0 then s
    else
      let m := min n (64 - va % 64)
      let s := match s.placeOf { s.focus with core := 20 } root (va % 2 ^ 56) with | some pa => s.scramble pa m | none => s
      s.scrambleAll root k (va + m) (n - m)
/-- The writes are made in order until one fails; a STATE or KVPT entry whose writing failed is undefined, all of it (R202). -/
def State.seqWrites (s : State) (u : UnitReq) : List (Nat × Nat × Nat × List Byte × Nat × Nat) → State × Eng Unit
  | [] => (s, .done ())
  | (va, pa, pte, bs, obj) :: t =>
    match s.engPut s.focus u.c 41 (leafFwd pte) va pa (pteEnc pte) bs with
    | (s, .done _) => s.seqWrites u t
    | (s, .failed code va) => (s.scrambleAll u.root (obj.2 / 64 + 2) obj.1 obj.2, .failed code va)
    | (s, .wait) => (s, .wait)

/-! ### Data writes that perform after an exchange (R204) -/

/-- A request writes in a physical range. -/
def writesIn (pk : Packet) (lo n : Nat) : Bool :=
  (pk.typ == 3 || pk.typ == 4 || pk.typ == 5) && decide (lo < pk.dest + pk.size) && decide (pk.dest < lo + n)
/-- A packet of a step, changed. -/
def Instr.mapRequest (f : Packet → Packet) : Instr → Instr
  | .store p x => .store (f p) x
  | .storelast p x => .storelast (f p) x
  | .atomic p x => .atomic (f p) x
  | i => i
/-- An effect that stores in a virtual range. -/
def Eff.storesIn (e : Eff) (va n : Nat) : Bool :=
  match e with
  | .store a b _ => decide (va < a + b.length) && decide (a < va + n)
  | .atom _ _ _ a .. => decide (va < a + 8) && decide (a < va + n)
  | .scat _ l => l.any fun x => decide (va < x.1 + x.2.length) && decide (x.1 < va + n)
  | _ => false
/-- Its data become undefined. -/
def Eff.spoil (e : Eff) (s : State) : Eff :=
  match e with
  | .store a b sc => .store a (s.lostBytes (2 ^ 56 + a) b.length) sc
  | .atom n o ty a _ _ d x => .atom n o ty a (BitVec.ofNat 64 (s.free (2 ^ 56 + 1) 64)) (BitVec.ofNat 64 (s.free (2 ^ 56 + 2) 64)) d x
  | .packet p n ws d f => .packet p n (ws.take 2 ++ (ws.drop 2).zipIdx.map fun w => BitVec.ofNat 128 (s.free (2 ^ 56 + 3 + w.2) 128)) d f
  | .scat n l => .scat n (l.map fun x => (x.1, s.lostBytes (2 ^ 56 + x.1) x.2.length))
  | e => e
/-- A packet that is not yet sent carries data into a physical range. -/
def Eff.sendsIn (e : Eff) (pa n : Nat) : Bool :=
  match e with
  | .packet _ _ ws .. => let a := bits (nth 0 ws 0).toNat 71 16; decide (pa < a + 128) && decide (a < pa + n)
  | _ => false
/-- A copy command that has not ended still writes in a physical range: the addresses that its lines have there. -/
def State.copiesIn (s : State) (l : Loc) (c : Nat) (k : Cmd) (pa n : Nat) : List Nat :=
  if k.stage = 3 ∨ k.dsp ≠ 0 ∨ k.kind = 4 then []
  else
    let r := s.placesOf l k ((k.moves (tget CBuf.reset (s.ctxAt l c).regs.cb k.cb)).map fun m => (0, m.2.1, m.2.2))
    (rangeFrom pa n).filter (inSpots r)
/-- A 64 KiB piece of an exchanged page, by virtual address and place: where a write to it has been issued and is not yet performed, the page's content
is undefined, and so is what the write brings (R204). -/
def State.latePiece (s : State) (root va pa n : Nat) : State :=
  let req (i : Instr) : Bool := match Instr.request? i with | some pk => writesIn pk pa n | none => false
  let queued (d : Die) : Bool := d.atomq.any (fun q => q.2.any fun pk => writesIn pk pa n) ||
    d.src.any fun r => r.2.sent.any (fun e => writesIn e.1 pa n) || r.2.redir.any fun e => writesIn e.2 pa n
  let mine (c : Ctx) : Bool := (c.bind.map (·.root)) == some root &&
    (c.q.stq.any (fun e => !e.sent && (e.eff.storesIn va n || e.eff.sendsIn pa n)) || c.pipe.held.any fun h => h.eff.storesIn va n || h.eff.sendsIn pa n)
  let copies := s.allCmds.filterMap fun e => match s.copiesIn e.1 e.2.1 e.2.2 pa n with | [] => none | m => some (e, m)
  if copies.isEmpty && !(s.host.queue.any fun pk => writesIn pk pa n) && !(s.todo.any fun t => req t.i) && !(s.dies.any fun d => queued d.2) && !(s.cores.any fun k => k.2.ctxs.any fun c => mine c.2) then s
  else
    let bad (pk : Packet) : Packet := if writesIn pk pa n then { pk with data := s.lostBytes (2 ^ 56 + pk.dest) pk.data.length } else pk
    let eff (e : Eff) : Eff := if e.storesIn va n || e.sendsIn pa n then e.spoil s else e
    let s := copies.foldl (fun s e => s.modCtxAt e.1.1 e.1.2.1 fun x => x.onQ fun q => { q with cmds := q.cmds.map fun k =>
      if k.num = e.1.2.2.num then { k with dirty := k.dirty ++ e.2 } else k }) (s.scramble pa n)
    { s with
      host := { s.host with queue := s.host.queue.map bad }
      todo := s.todo.map fun t => { t with i := Instr.mapRequest bad t.i }
      dies := s.dies.map fun d => (d.1, { d.2 with
        atomq := d.2.atomq.map fun q => (q.1, q.2.map bad)
        src := d.2.src.map fun r => (r.1, { r.2 with sent := r.2.sent.map fun e => (bad e.1, e.2), redir := r.2.redir.map fun e => (e.1, bad e.2) }) })
      cores := s.cores.map fun k => (k.1, { k.2 with ctxs := k.2.ctxs.map fun c => (c.1, if !mine c.2 then c.2 else { c.2 with
        pipe := { c.2.pipe with held := c.2.pipe.held.map fun h => { h with eff := eff h.eff } }
        q := { c.2.q with stq := c.2.q.stq.map fun e => if e.sent then e else { e with eff := eff e.eff } } }) }) }
/-- An exchanged page of `n` bytes, in pieces that each lie in one 64 KiB page. -/
def State.latePage (s : State) (root : Nat) : Nat → Nat → Nat → State
  | 0, _, _ => s
  | k + 1, va, n =>
    if n = 0 then s
    else
      let m := min n (65536 - va % 65536)
      let s := match s.placeOf { s.focus with core := 20 } root (va % 2 ^ 56) with
        | some pa => s.latePiece root va (s.followed pa 5) m
        | none => s
      s.latePage root k (va + m) (n - m)
/-- The pages that an operation has exchanged. -/
def State.lateWrites (s : State) (root n : Nat) (vas : List Nat) : State := vas.foldl (fun s va => s.latePage root (n / 65536 + 2) va n) s

/-- One operation of the unit, whole: its result word, or the code and the address it is reported with (R365, R400). -/
def State.seqRun (s : State) (u : UnitReq) (op c desc : Nat) (x y : Word) : State × Eng Word :=
  Eng.andThen (s.unitBytes u desc 256) fun s b =>
  let d := parseDesc b
  Eng.andThen (s.seqPlan u d op c x y) fun s p =>
  let own := (p.desc.own.filter fun e => !d.own.contains e).map fun e => (desc + e.1, e.2, false)
  let lines := (p.writes ++ own).flatMap fun w => cutWrite (if w.2.2 then (w.1, w.2.1.length) else (0, 0)) (w.2.1.length / 32 + 2) w.1 w.2.1
  Eng.andThen (s.seqPlaces u lines) fun s ps =>
  Eng.andThen (s.seqWrites u ps) fun s _ =>
    if p.code ≠ 0 then (s, .failed p.code desc) else (s.lateWrites u.root (d.pgtok * d.kvrow) p.swapped, .done (p.desc.word p.status))
/-- The response reaches the context, if it still waits for it (R400, R401). -/
def State.seqAnswer (s : State) (u : UnitReq) (d : Nat) (r : Eng Word) : State :=
  s.onCtx u.l u.c fun s =>
    match s.ctx.pipe.waits 4 with
    | some w =>
      if w.ser ≠ u.ser then s
      else match r with
        | .done v => s.waitDone 4 [(d, v)]
        | .failed code va => s.waitFault 4 code va
        | .wait => s
    | none => s
/-- The operation's response leaves, or waits for the host to complete the operation's writes (R190). -/
def State.seqEnds (s : State) (w : SeqOut) : State :=
  if s.hostOut w.out then (s.modDie fun q => { q with seqOut := some w }).post s.focus 0 .sequenceUnitOperation
  else (s.modDie fun q => { q with seqOut := none }).seqAnswer w.u w.dst (if w.code = 0 then .done w.word else .failed w.code w.va)
/-- SEQUENCE_UNIT_OPERATION (R202): the operation at the head of the die's queue is performed, and its response leaves behind its writes; one that
meets a held page waits. -/
def execSequenceUnitOperation (s : State) : Out :=
  .next (match s.die.seqOut, s.die.seqq with
    | some w, _ => s.seqEnds w
    | none, [] => s
    | none, u :: t =>
      match u.eff with
      | .seqop op c d desc x y =>
        let n := s.host.nextTag
        let take (s : State) : State := s.modDie fun q => { q with seqq := t }
        match s.seqRun u op c desc x y with
        | (_, .wait) => s.post s.focus 0 .sequenceUnitOperation
        | (s, .done v) => (take s).seqEnds ⟨u, d, (n, s.host.nextTag), 0, 0, v⟩
        | (s, .failed code va) => (take s).seqEnds ⟨u, d, (n, s.host.nextTag), code, va, 0⟩
      | _ => s.modDie fun q => { q with seqq := t })

/-! ### The host port (R188, R189, R416) -/

/-- The address is one of image delivery at the bridge of the host port: the boot window, BOOTLEN or WINBASE (R27). -/
def imageAddr (p d pa : Nat) : Bool :=
  paPkg pa == p && paStn pa == d && (inBootWindow (paOff pa) || paOff pa == 0xFF0000000200 || paOff pa == 0xFF0000000208)
/-- The address that a host access maps to: a device register through BAR0, or a fabric address through BAR2 (R188). Until the bridge is READY the
port serves image delivery alone (R27). -/
def State.hostAddr (s : State) (bar off n : Nat) : Option Nat :=
  match s.hostDie with
  | none => none
  | some (p, d) =>
    let x := s.dieAt p d
    let pa : Option Nat :=
      if bar = 0 then
        (if off / 2 ^ 16 < 10 ∧ n = 8 ∧ off % 8 = 0 then some (mkPa p (off / 2 ^ 16) (0xFF0000000000 + off % 2 ^ 16)) else none)
      else if bar = 2 ∧ off + n ≤ 2 ^ 36 then some (x.regs.winbase + off)
      else none
    if x.bypassed || !(x.boot == .ready || x.boot == .awaitImage) then none
    else pa.filter fun a => x.boot == .ready || imageAddr p d a
/-- A host access cut at 128-byte lines: offset from its start, and length. -/
def hostCuts : Nat → Nat → Nat → List (Nat × Nat)
  | 0, _, _ => []
  | k + 1, pa, n => if n = 0 then [] else let m := min n (128 - pa % 128); (pa, m) :: hostCuts k (pa + m) (n - m)
/-- The host port's place. -/
def State.hostLoc (s : State) : Loc := match s.hostDie with | some (p, d) => ⟨p, d, 0⟩ | none => ⟨0, 8, 0⟩
/-- An access joins those of the host, in arrival order. -/
def State.hostQueue (s : State) (typ : Nat) (pa : Nat) (data : List Byte) (n : Nat) : State :=
  let k := s.host.nextTag
  let pk : Packet := { blankPacket with typ := typ, size := n, dest := pa, agent := 43, data := data, id := idHost k }
  { s with host := { s.host with nextTag := k + 1, queue := s.host.queue ++ [pk] } }
/-- HOST_READ (R188, R189): it goes out behind every earlier write; an access that the BARs do not allow is an Unsupported Request. -/
def execHostRead (bar off size : Nat) (s : State) : Out :=
  .next (match s.hostAddr bar off size with
    | none =>
      let pk : Packet := { blankPacket with typ := 1, agent := 43, aux := 1, id := idHost s.host.nextTag }
      let s : State := { s with host := { s.host with nextTag := s.host.nextTag + 1, queue := s.host.queue ++ [pk] } }
      s.hostPump s.hostLoc s.host.queue.length
    | some pa =>
      let s := (hostCuts (size / 64 + 2) pa size).foldl (fun s e => s.hostQueue 1 e.1 [] e.2) s
      s.hostPump s.hostLoc s.host.queue.length)
/-- HOST_WRITE (R188, R189): posted; a write that the BARs do not allow is dropped. -/
def execHostWrite (bar off : Nat) (data : List Byte) (s : State) : Out :=
  .next (match s.hostAddr bar off data.length with
    | none => s
    | some pa =>
      let s := (hostCuts (data.length / 64 + 2) pa data.length).foldl (fun s e => s.hostQueue 3 e.1 ((data.drop (e.1 - pa)).take e.2) e.2) s
      s.hostPump s.hostLoc s.host.queue.length)

end Sys2Proof.Machine
end

