-- ==== Sys2Proof/Machine/Service.lean ====
section
/-! DEFINITION. Start-up, reset, the firmware mailbox and service: boot, quotes and keys, retirement, drain, bypass, firmware, dumps (R24 to R37,
R406 to R415). -/

namespace Sys2Proof.Machine

/-! ### Records (R26, R28) -/

/-- The board flash of a package. -/
def State.flashOf (s : State) (p : Nat) : Flash := tget Flash.reset s.flash p
/-- Bytes that the signature of a record covers. -/
def recordBytes (g : Signed) : List Byte := Config.recordBody g.fields
/-- A signed object passes R26: the hash of its key is the one wanted, and its signature is valid. -/
def signedOk (key body : List Byte) (sig : Nat × Nat) (want : Nat) : Bool :=
  bytesBe (sha384 key) == want && ecdsaOk key body sig.1 sig.2
/-- The device record verifies. -/
def deviceOk (f : Flash) : Bool :=
  match f.device with | some g => signedOk g.key (recordBytes g) (g.r, g.s) Config.rootKeyHash | none => false
/-- The deployment record verifies under the owner's key. -/
def deployOk (f : Flash) : Bool :=
  match f.device, f.deploy with
  | some d, some g => signedOk g.key (recordBytes g) (g.r, g.s) (nth 0 d.fields 8)
  | _, _ => false
/-- Enabled cores of a compute die, by the device record. -/
def enabledMask (f : Flash) (d : Nat) : Nat := match f.device with | some g => if d ≤ 7 then nth 0 g.fields d % 2 ^ 20 else 0 | none => 0

/-- Rows of a die that the device record replaces by spare rows, from byte 0 of the die's memory (R24, R411). -/
def spareRows (f : Flash) (p d : Nat) : List Nat :=
  match f.device with | some g => ((g.fields.drop 9).filter fun pa => paPkg pa == p && paStn pa == d).map paOff | none => []
/-- The identity key of a die, from its PUF and the helper data in flash: altered helper data give another key, and the die still boots
(R31). -/
def State.identity (s : State) (p d : Nat) : Nat := Config.identityKey p d (tget [] (s.flashOf p).helper d)

/-! ### Boot (R24 to R28) -/

/-- A die stops in boot (R26). -/
def State.bootFails (s : State) (p d : Nat) : State := s.modDieAt p d fun x => { x with boot := .failed }
/-- Steps 4 to 6: fresh memory with the repairs of the device record, HBMTOP, cores out of reset, ports up, the station enabled and READY set.
The second tier behind a bridge die begins empty as well (DESIGN CHOICE, log entry 64). -/
def State.bootDone (s : State) (p d : Nat) (image : List Byte) : State :=
  let mask := enabledMask (s.flashOf p) d
  let s := s.modDieAt p d fun x => { x with
    boot := .ready, store := Store.reset, spares := spareRows (s.flashOf p) p d, fw := Config.imageVersion image, imgHash := sha384 image
    regs := { x.regs with
      hbmtop := if d ≤ 7 then 0xB0D05 else 0
      retired := if d ≤ 7 then 2 ^ 20 - 1 - mask else 0
      portUp := if d ≤ 7 then 0 else ((List.range 8).filter fun i => Config.cxlCapacity p d i ≠ 0).foldl (fun m i => m + 2 ^ i) 0 } }
  ((List.range 20).filter fun c => mask.testBit c).foldl (fun s c => s.modCoreAt ⟨p, d, c⟩ fun _ => { Core.reset with on := true }) s
/-- Step 3 with the image in hand. -/
def State.bootImage (s : State) (p d : Nat) (key body : List Byte) (sig : Nat × Nat) : State :=
  if signedOk key body sig Config.rootKeyHash then s.bootDone p d body else s.bootFails p d
/-- The boot of one die up to its image: from flash at once, from the host port once it is delivered (R27). -/
def State.bootDie (s : State) (p d : Nat) : State :=
  let f := s.flashOf p
  if (s.dieAt p d).boot ≠ .off then s
  else if !deviceOk f || !deployOk f then s.bootFails p d
  else
    let fields := match f.deploy with | some g => g.fields | none => []
    let s := s.modDieAt p d fun x => { x with deploy := fields }
    let src := nth 0 fields 0
    if src = 0 then
      match f.image with
      | some g => s.bootImage p d g.key g.body (g.r, g.s)
      | none => s.bootFails p d
    else if src = 1 then (s.modDieAt p d fun x => { x with boot := .awaitImage }).post ⟨p, d, 0⟩ 0 .bootImageFetch
    else s.bootFails p d
/-- POWER_ON (R24): the ten dies of the package boot, each by itself. -/
def execPowerOn (s : State) : Out := .next ((List.range 10).foldl (fun s d => s.bootDie s.focus.pkg d) s)

/-- The length in BOOTLEN of the bridge that the die's own verified record selects: 0 while that bridge answers no LOADREQ of the die's management
processor (R25, R27). A die reads it in the package that the record names, whether or not that is its own (DESIGN CHOICE, log entry 69). -/
def State.imageLen (s : State) : Nat :=
  match s.die.hostPort with
  | some (p, d) =>
    let h := s.dieAt p d
    if s.isHostDie p d && (decide (h.boot = .awaitImage) || decide (h.boot = .ready)) && !h.bypassed &&
      (s.route s.focus.pkg s.focus.die p d).isSome then h.regs.bootlen else 0
  | none => 0
/-- BOOT_IMAGE_FETCH (R27): BOOTLEN of the host-port bridge is read until it is not zero; then the image is fetched and verified. -/
def execBootImageFetch (s : State) : Out :=
  .next (
    let l := s.focus
    if s.die.boot ≠ .awaitImage then s
    else match s.die.hostPort with
      | none => s.bootFails l.pkg l.die
      | some (p, d) =>
        if (s.dieAt p d).boot = .failed then s.bootFails l.pkg l.die
        else if s.imageLen = 0 then s.post l 0 .bootImageFetch
        else
          let b := Memory.read (s.dieAt p d).bootwin 0 (min s.imageLen (2 ^ 24))
          s.bootImage l.pkg l.die (Config.imageKey b) (Config.imageBody b) (Config.imageSig b))
/-- BOOT_IMAGE_TIMEOUT (R27): BOOTLEN still reads 0 after 2^32 cycles. -/
def execBootImageTimeout (s : State) : Out :=
  .next (if s.die.boot = .awaitImage ∧ s.imageLen = 0 then s.bootFails s.focus.pkg s.focus.die else s)

/-! ### Reset (R37) -/

/-- The agent and station that a source key names. -/
def keyAgent (k : Nat) : Nat := k / 256
def keyStn (k : Nat) : Nat × Nat := (k / 16 % 16, k % 16)
/-- Every source with unanswered requests to lost stations finds no answer: it will time out (R386). -/
def State.loseStations (s : State) (lost : Nat → Nat → Bool) : State :=
  s.dies.foldl (fun s e =>
    if lost (e.1 / 16) (e.1 % 16) then s
    else (e.2.src.filter fun r => lost (keyStn r.1).1 (keyStn r.1).2 && !r.2.sent.isEmpty).foldl
      (fun s r => s.post ⟨e.1 / 16, e.1 % 16, 0⟩ 0 (.requestTimeout (keyAgent r.1) (keyStn r.1).1 (keyStn r.1).2)) s) s
/-- RESET_ASSERT (R37): the package loses all its state, the content of its second tier with it (DESIGN CHOICE, log entry 64); requests of other
packages to it find no answer. -/
def execResetAssert (s : State) : Out :=
  .next (
    let p := s.focus.pkg
    let s : State := { s with
      cores := s.cores.filter fun e => (keyLoc e.1).pkg ≠ p
      dies := s.dies.filter fun e => e.1 / 16 ≠ p
      regions := s.regions.filter fun r => paPkg r.blk ≠ p
      todo := s.todo.filter fun t => t.l.pkg ≠ p && (match Instr.request? t.i with | some pk => pk.spkg ≠ p | none => true)
      owed := s.owed.filter fun r => paPkg r.blk ≠ p
      host := if (s.hostDie.map (·.1)) = some p then { s.host with posted := [], queue := [] } else s.host }
    s.loseStations fun a _ => a == p)

/-! ### The mailbox (R32 to R35) -/

/-- A mailbox command is in progress with this number. -/
def DevRegs.mailing (r : DevRegs) (cmd : Nat) : Bool := r.mbxbusy && wbits r.mbxreq 63 60 == cmd
/-- Reserved bytes of a request block are zero. -/
def mailOk (b : List Byte) : Bool := fieldOf b 18 14 == 0 && fieldOf b 177 7 == 0 && fieldOf b 224 32 == 0 && fieldOf b 560 464 == 0
/-- The mailbox of the focus die is free again with a result; `done` counts the request. -/
def State.mailEnds (s : State) (result : Nat) (done : Bool) : State :=
  s.modDie fun d => { d with regs := { d.regs with mbxbusy := false, mbxres := result, mbxdone := if done then d.regs.mbxdone + 1 else d.regs.mbxdone } }
/-- Bytes written by physical address in lines of 64: whether all were applied. -/
def State.mailPut (s : State) (pa : Nat) : Nat → List Byte → State × Bool
  | 0, _ => (s, true)
  | n + 1, bs =>
    if bs.isEmpty then (s, true)
    else
      let k := 64 - pa % 64
      match s.unitWrite s.focus 42 pa (bs.take k) with
      | (s, 0) => s.mailPut (pa + k) n (bs.drop k)
      | (s, _) => (s, false)
/-- The outputs of a command, by offset in its block. -/
def State.mailOuts (s : State) (blk : Nat) : List (Nat × List Byte) → State × Bool
  | [] => (s, true)
  | o :: t =>
    match s.mailPut (blk + o.1) 16 o.2 with
    | (s, true) => s.mailOuts blk t
    | (s, false) => (s, false)
/-- Steps 4 and 5 of R35, once the host has completed what the outputs left in its memory (R190). FLAG is a physical address, of which bits [63:56]
name nothing (DESIGN CHOICE, log entry 70). -/
def State.mailGoesOn (s : State) (m : MailOut) : State :=
  if s.hostOut m.out then
    let s := s.modDie fun d => { d with mailOut := some m }
    match mailboxEvent s.die.regs.mbxreq with | some i => s.post s.focus 0 i | none => s
  else
    let s := s.modDie fun d => { d with mailOut := none }
    (if m.flag = 0 then s else (s.mailPut m.flag 2 m.fval).1).mailEnds m.res true
/-- Steps 1 to 3 of R35 about a command, which gives its result and its outputs by offset. FLAG is written and DONE counts even where the outputs
or STATUS could not be written (DESIGN CHOICE, log entry 48); bits 63:56 of FLAG are ignored (DESIGN CHOICE, log entry 70). -/
def State.mail (s : State) (f : State → List Byte → State × Nat × List (Nat × List Byte)) : State :=
  match s.die.mailOut with
  | some m => s.mailGoesOn m
  | none =>
  let blk := wbits s.die.regs.mbxreq 55 10 * 1024
  let kind := s.regionKind blk
  if kind ≠ some 0 ∧ kind ≠ some 2 then s.mailEnds 5 true
  else match s.unitRead s.focus 42 blk 1024 with
    | (s, .error _) => s.mailEnds 5 true
    | (s, .ok b) =>
      if !mailOk b then s.mailEnds 2 false
      else
        let (s, res, outs) := f s b
        if res = 2 then s.mailEnds 2 false
        else
          let n := s.host.nextTag
          let (s, ok) := s.mailOuts blk (outs ++ [(17, leBytes 1 res)])
          s.mailGoesOn ⟨(n, s.host.nextTag), fieldOf b 0 8 % 2 ^ 56, (b.drop 8).take 8, if ok then res else 5⟩
/-- QUOTE (R32): the signed quote over the requester's nonce; the signature's one-time number is a free value. The hashes of the image and of the
records are those of their signed bodies (DESIGN CHOICE, log entry 65). -/
def execQuote (s : State) : Out :=
  .next (if !s.die.regs.mailing 1 then s else s.mail fun s b =>
    let p := s.focus.pkg
    let d := s.focus.die
    let f := s.flashOf p
    let hash (g : Option Signed) : List Byte := match g with | some g => sha384 (recordBytes g) | none => List.replicate 48 0
    let body := [0x51, 0x54, 0x45, 0x33, BitVec.ofNat 8 p, BitVec.ofNat 8 d, 0, 0] ++ leBytes 8 s.die.fw.toNat ++ (b.drop 32).take 48 ++
      s.die.imgHash ++ hash f.device ++ hash f.deploy
    let sig := ecdsaSign (s.identity p d) (s.free (2 ^ 53) 384 % (n384 - 1) + 1) body
    (s, 0, [(256, body ++ beBytes 48 sig.1 ++ beBytes 48 sig.2)]))
/-- LOAD_KEY_SLOT (R33): the key unwraps under the shared secret's hash, or the slot stays as it is. While the management processor restarts the
delivery is refused, as busy (R409; DEDUCED, log entry 49). -/
def execLoadKeySlot (s : State) : Out :=
  .next (if !s.die.regs.mailing 2 then s else if s.die.restarting then s.mailEnds 1 false else s.mail fun s b =>
    let p := s.focus.pkg
    let d := s.focus.die
    let slot := fieldOf b 16 1
    if 8 ≤ d then (s, 4, [])
    else if 15 < slot then (s, 2, [])
    else
      let key : Option (BitVec 256) := match ecdh (s.identity p d) ((b.drop 80).take 97) with
        | some z =>
          let kek := ((sha384 (z ++ [BitVec.ofNat 8 p, BitVec.ofNat 8 d, BitVec.ofNat 8 slot])).take 32).map (·.toNat)
          unwrapKey kek (((b.drop 184).take 40).map (·.toNat))
        | none => none
      match key with
      | some k => (s.modDie fun x => { x with keys := Sys2Proof.Machine.tset x.keys slot k }, 0, [])
      | none => (s, 3, []))
/-- CLEAR_KEY_SLOT (R33, R34). -/
def execClearKeySlot (s : State) : Out :=
  .next (if !s.die.regs.mailing 3 then s else s.mail fun s b =>
    let slot := fieldOf b 16 1
    if 8 ≤ s.focus.die then (s, 4, [])
    else if 15 < slot then (s, 2, [])
    else (s.modDie fun x => { x with keys := tdel x.keys slot }, 0, []))

/-! ### Service commands (R406) -/

/-- The service command in progress at the focus die. -/
def State.serving (s : State) (w : Word) (cmd : Nat) : Bool := s.die.regs.svcbusy && s.die.regs.svccmd == w && wbits w 63 60 == cmd
/-- The command ends; one that is done is logged with its word. -/
def State.serviceEnds (s : State) (res : Nat) : State :=
  let l := s.focus
  let w := s.die.regs.svccmd
  let s := s.modDie fun d => { d with regs := { d.regs with svcbusy := false, svcres := res } }
  if res = 0 then s.logError l.pkg l.die 0 l.pkg l.die 0 42 w.toNat 0 0 else s
/-- No context of a core is bound. -/
def Core.unboundAll (k : Core) : Bool := (List.range 4).all fun c => (k.ctx c).bind.isNone
/-- Regions with a core group on some cores of a package. -/
def State.regionsOn (s : State) (p : Nat) (on : Loc → Bool) : List Region := s.regions.filter fun r => paPkg r.blk == p && r.groups.any fun g => on g.l
/-- Leaf groups on some cores are narrowed (R47). -/
def State.narrowAll (s : State) (p : Nat) (on : Loc → Bool) : State :=
  ((s.regionsOn p on).filter fun r => r.kind == 2).foldl (fun s r =>
    s.modRegion r.blk fun r => { r with groups := r.groups.map fun g => if on g.l then { g with narrowed := true, cause := 0 } else g }) s

/-! ### Retiring a core (R407) -/

/-- RETIRE_CORE (R407): leaf groups of the core are narrowed, gang members on it are to stop at their next pre-emption point, and are lost there. -/
def execRetireCore (w : Word) (s : State) : Out :=
  .next (
    let l := s.focus
    let c := wbits w 7 0
    if !s.serving w 1 then s
    else if 20 ≤ c ∨ 8 ≤ l.die ∨ wbits w 55 8 ≠ 0 then s.serviceEnds 2
    else
      let on (x : Loc) : Bool := decide (x = ⟨l.pkg, l.die, c⟩)
      let s := s.narrowAll l.pkg on
      let s := ((s.regionsOn l.pkg on).filter fun r => r.kind == 3).foldl (fun s r => s.markStop ((s.ctxsOf r).filter fun x => on x.1) 4) s
      s.post l 0 (.coreRetired c))
/-- CORE_RETIRED (R407): with no context bound the core is held in reset and the command is done. -/
def execCoreRetired (c : Nat) (s : State) : Out :=
  .next (
    let l : Loc := ⟨s.focus.pkg, s.focus.die, c⟩
    if s.die.retiring ≠ some c then s
    else if !(s.coreAt l).unboundAll then s.post s.focus 0 (.coreRetired c)
    else ((s.modCoreAt l fun _ => Core.reset).modDie fun d => { d with regs := { d.regs with retired := d.regs.retired ||| 2 ^ c } }).serviceEnds 0)
/-- RESTORE_CORE (R407): only a core that the device record enables. -/
def execRestoreCore (w : Word) (s : State) : Out :=
  .next (
    let l := s.focus
    let c := wbits w 7 0
    if !s.serving w 2 then s
    else if 20 ≤ c ∨ 8 ≤ l.die ∨ wbits w 55 8 ≠ 0 ∨ !(enabledMask (s.flashOf l.pkg) l.die).testBit c then s.serviceEnds 2
    else if s.die.regs.retired.testBit c then
      (((s.modCoreAt ⟨l.pkg, l.die, c⟩ fun _ => { Core.reset with on := true }).modDie fun d =>
        { d with regs := { d.regs with retired := d.regs.retired ^^^ 2 ^ c } }).consider l.pkg).serviceEnds 0
    else s.serviceEnds 0)

/-! ### Draining and firmware (R408, R409) -/

/-- Arguments of a command without operands are 0. -/
def plainCmd (w : Word) : Bool := wbits w 55 0 == 0
/-- No context of the focus die is bound. -/
def State.dieFree (s : State) : Bool := (List.range 20).all fun c => (s.coreAt ⟨s.focus.pkg, s.focus.die, c⟩).unboundAll
/-- DRAIN_DIE (R408): leaf groups are narrowed, gangs suspended or, without a save pool, lost. -/
def execDrainDie (w : Word) (s : State) : Out :=
  .next (
    let l := s.focus
    if !s.serving w 3 then s
    else if !plainCmd w then s.serviceEnds 2
    else
      let on (x : Loc) : Bool := x.pkg == l.pkg && x.die == l.die
      let s := (s.modDie fun d => { d with draining := true }).narrowAll l.pkg on
      let s := ((s.regionsOn l.pkg on).filter fun r => r.kind == 3).foldl
        (fun s r => if r.saveptr = 0 then s.gangLost r.blk else s.suspendOne r.blk) s
      s.post l 0 .dieDrained)
/-- DIE_DRAINED (R408). -/
def execDieDrained (s : State) : Out :=
  .next (
    if !s.die.draining then s
    else if !s.dieFree then s.post s.focus 0 .dieDrained
    else
      let s := s.modDie fun d => { d with regs := { d.regs with drained := true } }
      if s.serving s.die.regs.svccmd 3 then s.serviceEnds 0 else s)
/-- UNDRAIN_DIE (R408). -/
def execUndrainDie (w : Word) (s : State) : Out :=
  .next (
    if !s.serving w 4 then s
    else if !plainCmd w then s.serviceEnds 2
    else ((s.modDie fun d => { d with draining := false, regs := { d.regs with drained := false } }).consider s.focus.pkg).serviceEnds 0)
/-- The management processor reads an image from HBM of its package: none where its die does not reach it or its home answers with an error. -/
def State.readImage (s : State) (pa : Nat) : State × Option (List Byte) :=
  match s.unitRead s.focus 42 pa 64 with
  | (s, .error _) => (s, none)
  | (s, .ok h) => match s.unitRead s.focus 42 pa (max 1 (min (Config.imageLength h) (2 ^ 24))) with
    | (s, .ok b) => (s, some b)
    | (s, .error _) => (s, none)
/-- UPDATE_FIRMWARE (R409): a drained die verifies the image in HBM of its package, and its management processor restarts in it; the command is done
once it runs. An image that cannot be read fails as one that does not verify (DEDUCED, log entry 49). -/
def execUpdateFirmware (w : Word) (s : State) : Out :=
  .next (
    let pa := wbits w 55 8 * 256
    if !s.serving w 6 then s
    else if s.die.restarting then (s.modDie fun d => { d with restarting := false }).serviceEnds 0
    else if !s.die.regs.drained then s.serviceEnds 5
    else if wbits w 7 0 ≠ 0 ∨ paPkg pa ≠ s.focus.pkg ∨ s.regionKind pa ≠ some 0 then s.serviceEnds 2
    else match s.readImage pa with
      | (s, none) => s.serviceEnds 3
      | (s, some b) =>
        let body := Config.imageBody b
        if signedOk (Config.imageKey b) body (Config.imageSig b) Config.rootKeyHash then
          (s.modDie fun d => { d with fw := Config.imageVersion body, imgHash := sha384 body, restarting := true }).post s.focus 0 (.updateFirmware w)
        else s.serviceEnds 3)

/-! ### Bypassing a die (R410) -/

/-- The lowest compute die of a package that is still active. -/
def State.lowestActive (s : State) (p : Nat) : Nat :=
  ((List.range 8).find? fun d => decide ((s.dieAt p d).boot = .ready) && !(s.dieAt p d).bypassed).getD 0
/-- Operations queued at the lost die's units fail (R386, R410). -/
def State.loseUnits (s : State) (p d : Nat) : State :=
  let q := (s.dieAt p d).seqq ++ ((s.dieAt p d).seqOut.map (·.u)).toList
  let s := s.modDieAt p d fun x => { x with seqq := [], seqOut := none, mailOut := none, dealq := [], atomq := [], hot := [], colls := [], roots := [], walks := [] }
  q.foldl (fun s u => match u.eff with | .seqop _ _ r desc _ _ => s.seqAnswer u r (.failed 0x0402 desc) | _ => s) s
/-- The contexts of a lost die are gone, and its groups leave their regions. -/
def State.loseCores (s : State) (p d : Nat) : State :=
  let s := (dieCtxs p d).foldl (fun s x => if (s.ctxAt x.1 x.2).bind.isSome then s.freeCtx x.1 x.2 else s) s
  let s := (List.range 20).foldl (fun s c => s.modCoreAt ⟨p, d, c⟩ fun k => { k with on := false, ctxs := [] }) s
  { s with regions := s.regions.map fun r => if paPkg r.blk = p then { r with groups := r.groups.filter fun g => g.l.die != d } else r }
/-- Contexts of a region that ran on a lost die, each with a deal that may run once more. -/
def State.lostDeals (s : State) (r : Region) (d : Nat) : List (Loc × Nat) :=
  (s.ctxsOf r).filter fun x => x.1.die == d && match (s.ctxAt x.1 x.2).bind with | some b => !b.ended | none => false
/-- Policy 2 reruns the deals of the contexts that a lost die took with it, on other cores; a deal that has been rerun before, or a home that is lost,
leaves policy 1 (R359, R410; DESIGN CHOICE, log entry 49). -/
def State.mayRerun (s : State) (r : Region) (d : Nat) : Bool :=
  r.policy == 2 && r.kind == 2 && r.home != d &&
    (s.lostDeals r d).all fun x => match (s.ctxAt x.1 x.2).bind with | some b => !b.reran | none => true
/-- The deals to be run once more, as contexts that wait for a core. -/
def State.keepDeals (s : State) (r : Region) (d : Nat) : State :=
  let mine := (s.lostDeals r d).map fun x =>
    (⟨2 ^ 20 + 4 * locKey x.1 + x.2, r.era, x.2, r.groupOf x.1, s.ctxAt x.1 x.2, 0, true⟩ : Saved)
  s.modRegion r.blk fun r => { r with saved := r.saved ++ mine }
/-- A die is lost (R410): its station takes and sends nothing, the package names it unreachable, and regions that ran on it or are
homed on it take 0x0703. -/
def State.bypass (s : State) (p d : Nat) : State :=
  if (s.dieAt p d).bypassed then s
  else
    let hit := s.regions.filter fun r => paPkg r.blk == p && !r.final && (r.home == d || r.groups.any fun g => g.l.die == d)
    let again := (hit.filter fun r => s.mayRerun r d).map (·.blk)
    let s := hit.foldl (fun s r => if again.contains r.blk then s.keepDeals r d else s) s
    let s := s.modDieAt p d fun x => { x with bypassed := true }
    let s := ((List.range 10).filter (· != d)).foldl
      (fun s e => s.modDieAt p e fun x => { x with regs := { x.regs with unrch := x.regs.unrch ||| (1 <<< d) } }) s
    let s := ((s.loseCores p d).loseUnits p d).loseStations fun a b => a == p && b == d
    let low := s.lowestActive p
    hit.foldl (fun s r =>
      let s := s.logRegion p low 0x0703 0 r.blk
      if again.contains r.blk then s.consider p else if r.kind = 3 ∧ r.home ≠ d then s.gangLost r.blk else s.failDomain r.blk) s
/-- HEARTBEAT (R410): a ring neighbour notes whether the die's management processor answers. -/
def execHeartbeat (s : State) : Out :=
  .next (s.modDie fun d => { d with missed := if d.boot = .ready ∧ !d.bypassed then 0 else min 4 (d.missed + 1) })
/-- HEARTBEAT_TIMEOUT (R410): after four missed heartbeats the neighbours bypass the die. -/
def execHeartbeatTimeout (s : State) : Out := .next (if s.die.missed = 4 then s.bypass s.focus.pkg s.focus.die else s)

/-! ### Fatal dumps (R412, R413) -/

/-- Dies in ascending ring position (R12). -/
def ringOrder : List Nat := [0, 1, 2, 3, 8, 4, 5, 6, 7, 9]
/-- The compute dies after a die in ring order. -/
def diesAfter (d : Nat) : List Nat :=
  let i := ringOrder.findIdx (· == d)
  ((ringOrder.drop (i + 1)) ++ ringOrder.take i).filter (· ≤ 7)
/-- The slot that a die dumps into (R413): a compute die whose HBM is lost uses a foreign one. -/
def State.dumpSlot (s : State) (p d : Nat) : Option Nat :=
  if d ≤ 7 ∧ !(s.dieAt p d).bypassed then some (mkPa p d (s.dieAt p d).hbmTop)
  else ((diesAfter d).find? fun e =>
    decide ((s.dieAt p e).boot = .ready) && !(s.dieAt p e).bypassed && leNat (s.fwBytes (mkPa p e ((s.dieAt p e).hbmTop + 0x10000000)) 4) == 0).map
    fun e => mkPa p e ((s.dieAt p e).hbmTop + 0x10000000)
/-- One of the 64 cycles in which the core in focus issues nothing and what is in flight goes on: array items enter, waves cross, rows land. -/
def State.runDown (s : State) : State :=
  let go (s : State) (f : State → Out) : State := match f s with | .next t => t | _ => s
  let s := s.modCore fun k => { k with cycle := k.cycle + 1 }
  [execArrayItemEntry, execBeatSettle, execDrainLanding, execEdgeRowLanding].foldl go s
/-- Sixty-four such cycles of a core, and its results land. -/
def State.stopCore (s : State) (l : Loc) : State :=
  let s := s.modCoreAt l fun k => { k with on := false }
  let quiet := (s.coreAt l).arr.items.isEmpty && (s.coreAt l).arr.cross.isEmpty && (s.coreAt l).arr.exits.isEmpty
  let s := if quiet then s.modCoreAt l fun k => { k with cycle := k.cycle + 64 }
    else { (List.range 64).foldl (fun s _ => s.runDown) { s with focus := l, sub := 0 } with focus := s.focus, sub := s.sub }
  s.modCoreAt l fun k => { k with ctxs := k.ctxs.map fun x => (x.1, x.2.landDue k.cycle s.draw) }
/-- Issue stops on every core, and results in flight land (R412 steps 1 and 2). -/
def State.stopDie (s : State) (p d : Nat) : State := (List.range 20).foldl (fun s c => s.stopCore ⟨p, d, c⟩) s
/-- The parity of a cell register (R370). -/
def parity32 (x : BitVec 32) : Nat := popcount x.toNat 32 % 2
/-- The 32 bytes of a cell from its registers and their copies (R413). -/
def cellBytes (g c : Grid) (n : Nat) : List Byte :=
  let r := [tget 0 g.acc n, tget 0 g.c0 n, tget 0 g.c1 n, tget 0 c.acc n, tget 0 c.c0 n, tget 0 c.c1 n]
  (r.flatMap fun x => leBytes 4 x.toNat) ++ leBytes 8 (ofLanes 1 (r.map parity32))
/-- The bits that RUNMAX is dumped as. -/
def runmaxBits (x : Ext) : Nat := rne32 x
/-- A tag-table entry as it is dumped. -/
def tagBytes (t : TagEnt) : List Byte := leBytes 8 t.key.toNat ++ leBytes 2 t.slot.toNat ++ leBytes 1 t.ctx ++ leBytes 5 t.valid.toNat
/-- A core's section: offsets and bytes (R413). -/
def State.coreDump (s : State) (l : Loc) : List (Nat × List Byte) :=
  let k := s.coreAt l
  ((List.range 4).flatMap fun c =>
    (s.saveImage k (k.ctx c) 0 (State.resumeVa { s with focus := l, sub := c })).map fun e => (c * 0x48000 + e.1, e.2)) ++
  [(0x120000, (List.range 1024).flatMap (cellBytes (k.arr.gridAt k.cycle) (k.arr.overtake k.cycle).copy)), (0x128000, leBytes 64 k.arr.edge.prog),
   (0x128040, leBytes 8 k.arr.edge.cfg ++ leBytes 8 k.arr.edge.thr ++ leBytes 4 (runmaxBits k.arr.edge.runmax) ++
     leBytes 4 (match k.arr.owner with | some o => o + 1 | none => 0)),
   (0x130000, (List.range 1024).flatMap fun i => tagBytes (tget ⟨false, 0, 0, 0⟩ k.tags i)),
   (0x200000, Memory.read k.spad 0 (2 ^ 22)), (0x600000, Memory.read k.accm 0 (2 ^ 20))]
/-- Words of a die's cores that hold an error which is not corrected: they are dumped as read, and counted (R412). -/
def State.badWords (s : State) (p d : Nat) : Nat :=
  if d ≤ 7 then ((List.range 20).map fun c => ((s.coreAt ⟨p, d, c⟩).errs.filter fun e => e.kind == 1 && e.st != 10).length).sum else 0
/-- The dump header (R413). -/
def State.dumpHeader (s : State) (p d cause : Nat) : List (Nat × List Byte) :=
  let x := s.dieAt p d
  let log (n : Nat) : List Byte := let e := tget (0, 0, 0, 0) x.regs.elog n; leBytes 8 e.1.toNat ++ leBytes 8 e.2.1.toNat ++ leBytes 8 e.2.2.1.toNat ++ leBytes 8 e.2.2.2.toNat
  [(0, [0x44, 0x4D, 0x50, 0x33, BitVec.ofNat 8 p, BitVec.ofNat 8 d] ++ leBytes 2 cause ++ leBytes 8 x.fw.toNat ++ leBytes 4 (s.badWords p d) ++ leBytes 4 0 ++
     (List.range 20).flatMap fun c => leBytes 8 (s.coreAt ⟨p, d, c⟩).cycle),
   (0x800, (List.range 64).flatMap log ++ leBytes 8 x.regs.elogcnt ++ leBytes 8 x.regs.svcstat.toNat)]
/-- A dump of a die is written, if a slot takes it. -/
def State.writeDump (s : State) (p d cause : Nat) : Option State :=
  match s.dumpSlot p d with
  | none => none
  | some slot =>
    let s := s.stopDie p d
    let cores := if d ≤ 7 then (List.range 20).flatMap fun c => (s.coreDump ⟨p, d, c⟩).map fun e => (0x100000 + 0x800000 * c + e.1, e.2) else []
    let s := (s.dumpHeader p d cause ++ cores).foldl (fun s e => s.fwPut (slot + e.1) e.2) s
    some (s.modDieAt p d fun x => { x with regs := { x.regs with dumped := true } })
/-- DUMP (R412). -/
def execDump (w : Word) (s : State) : Out :=
  .next (
    if !s.serving w 7 then s
    else if !plainCmd w then s.serviceEnds 2
    else match s.writeDump s.focus.pkg s.focus.die 0 with
      | some s => s.serviceEnds 0
      | none => s.serviceEnds 4)
/-- FATAL_DUMP (R412): firmware dumps by itself; without a slot the error log alone remains. -/
def execFatalDump (cause : Nat) (s : State) : Out := .next ((s.writeDump s.focus.pkg s.focus.die cause).getD s)
/-- BYPASS_DIE (R410): the die's firmware, which still runs, first dumps for the 0x0703 that its die takes (R412). -/
def execBypassDie (w : Word) (s : State) : Out :=
  .next (
    if !s.serving w 5 then s
    else if !plainCmd w then s.serviceEnds 2
    else
      let s := s.serviceEnds 0
      ((s.writeDump s.focus.pkg s.focus.die 0x0703).getD s).bypass s.focus.pkg s.focus.die)
/-- CLEAR_FOREIGN_DUMP_SLOT (R413). -/
def execClearForeignDumpSlot (w : Word) (s : State) : Out :=
  .next (
    let l := s.focus
    if !s.serving w 8 then s
    else if !plainCmd w ∨ 8 ≤ l.die then s.serviceEnds 2
    else (s.fwPut (mkPa l.pkg l.die (s.die.hbmTop + 0x10000000)) (List.replicate 4096 0)).serviceEnds 0)

end Sys2Proof.Machine
end

