-- ==== Sys2Proof/Machine/Special.lean ====
section
/-! DEFINITION. The correctly rounded special functions (R111). -/

namespace Sys2Proof.Machine

/-- Fraction bits of the fixed-point evaluation. -/
def spP : Nat := 320

/-- Integer square root by bits, from bit `n − 1` down. -/
def isqrtFrom (x : Nat) : Nat → Nat → Nat
  | 0, r => r
  | n + 1, r =>
    let r' := r + 2 ^ n
    if r' * r' ≤ x then isqrtFrom x n r' else isqrtFrom x n r

/-- ⌊√x⌋. -/
def isqrt (x : Nat) : Nat := isqrtFrom x (x.log2 / 2 + 1) 0

/-- Σ z^(2k+1) / (2k+1) in fixed point, from power `p` and index `k`. -/
def atanhFrom (z2 : Nat) : Nat → Nat → Nat → Nat
  | 0, _, _ => 0
  | n + 1, p, k => p / (2 * k + 1) + atanhFrom z2 n ((p * z2) >>> spP) (k + 1)

/-- atanh of num / den, den at least three times num, in fixed point. -/
def atanhFix (num den : Nat) : Nat :=
  let z := (num <<< spP) / den
  atanhFrom ((z * z) >>> spP) 110 z 0

/-- ln 2 in fixed point. -/
def ln2Fix : Nat := 2 * atanhFix 1 3

/-- Σ t^k / k! in fixed point. -/
def expFrom (t : Nat) : Nat → Nat → Nat → Nat
  | 0, _, _ => 0
  | n + 1, p, k => p + expFrom t n ((p * t / (k + 1)) >>> spP) (k + 1)

/-- A number a little above m × 2^e and below (m + 1) × 2^e. -/
def sticky (neg : Bool) (m : Nat) (e : Int) : Ext := .fin neg (2 * m + 1) (e - 1)

/-- 2^x. -/
def exp2Ext (neg : Bool) (m : Nat) (e : Int) : Ext :=
  if m = 0 then .fin false 1 0
  else if 14 ≤ (m.log2 : Int) + e then .fin false 1 (if neg then -20000 else 20000)
  else
    -- |x| in units of 2^-spP is exact: no format reaches below 2^-200
    let a : Int := m <<< (e + spP).toNat
    let v : Int := if neg then -a else a
    let n := v / 2 ^ spP
    let f := (v % 2 ^ spP).toNat
    if f = 0 then .fin false 1 n
    else
      let t := (f * ln2Fix) >>> spP
      sticky false (expFrom t 90 (2 ^ spP) 0) (n - spP)

/-- log2 x for x = m × 2^e above zero. -/
def log2Ext (m : Nat) (e : Int) : Ext :=
  let k := m.log2
  let E : Int := k + e
  if m = 2 ^ k then .fin (decide (E < 0)) E.natAbs 0
  else
    let l := 2 * atanhFix (m - 2 ^ k) (m + 2 ^ k)
    let fr := (l <<< spP) / ln2Fix
    let v : Int := E * 2 ^ spP + fr
    sticky (decide (v < 0)) (if v < 0 then v.natAbs - 1 else v.natAbs) (-spP)

/-- 1 / x for x = ± m × 2^e. -/
def rcpExt (neg : Bool) (m : Nat) (e : Int) : Ext :=
  let q := 2 ^ 200 / m
  if q * m = 2 ^ 200 then .fin neg q (-e - 200) else sticky neg q (-e - 200)

/-- √x for x = m × 2^e. -/
def sqrtExt (m : Nat) (e : Int) : Ext :=
  let (m, e) := if e % 2 = 0 then (m, e) else (2 * m, e - 1)
  let r := isqrt (m <<< 200)
  if r * r = m <<< 200 then .fin false r (e / 2 - 100) else sticky false r (e / 2 - 100)

/-- 1 / √x for x = m × 2^e. -/
def rsqExt (m : Nat) (e : Int) : Ext :=
  let (m, e) := if e % 2 = 0 then (m, e) else (2 * m, e - 1)
  let r := isqrt (2 ^ 400 / m)
  if r * r * m = 2 ^ 400 then .fin false r (-(e / 2) - 200) else sticky false r (-(e / 2) - 200)

/-- The five functions: 0 exp2, 1 log2, 2 rcp, 3 rsq, 4 sqrt. -/
def specialExt (fn : Nat) (x : Ext) : Ext × Flags :=
  match x with
  | .nan s => (.nan false, if s then fNV else 0)
  | .inf neg =>
    match fn with
    | 0 => (if neg then .fin false 0 0 else .inf false, 0)
    | 1 => if neg then (.nan false, fNV) else (.inf false, 0)
    | 2 => (.fin neg 0 0, 0)
    | 3 => if neg then (.nan false, fNV) else (.fin false 0 0, 0)
    | _ => if neg then (.nan false, fNV) else (.inf false, 0)
  | .fin neg m e =>
    if m = 0 then
      match fn with
      | 0 => (.fin false 1 0, 0)
      | 1 => (.inf true, fDZ)
      | 2 => (.inf neg, fDZ)
      | 3 => (.inf neg, fDZ)
      | _ => (.fin neg 0 0, 0)
    else if neg && (fn == 1 || fn == 3 || fn == 4) then (.nan false, fNV)
    else
      match fn with
      | 0 => (exp2Ext neg m e, 0)
      | 1 => (log2Ext m e, 0)
      | 2 => (rcpExt neg m e, 0)
      | 3 => (rsqExt m e, 0)
      | _ => (sqrtExt m e, 0)

/-- One lane of a special function: rounded by RNE, with DAZ, FTZ and SAT (R95, R96, R111). -/
def elSpecial (fn : Nat) (f : Word) (c x : Nat) : Nat × Flags :=
  let (r, fl) := specialExt fn (src f c x)
  let (v, fl') := roundTo c 0 (fmtSAT f) (fmtFTZ f) r
  (v, fl ||| fl')

end Sys2Proof.Machine
end

