-- ==== Sys2Proof/Machine/Vector.lean ====
section
/-! DEFINITION. The vector instructions (R250 to R275). -/

namespace Sys2Proof.Machine

/-- VMOV (R253): bits [W′ − 1 : 0] move unchanged. -/
def execVmov (h : VHd) (d a : BitVec 6) (s : State) : Out :=
  slot h.q s fun s => s.vresult h 3 d (vwidth h) (s.rv h.cl a.toNat)
/-- VADD (R254). -/
def execVadd (h : VHd) (d a b : BitVec 6) (s : State) : Out := vbin h d a b 3 s fmtArith (elAdd)
/-- VSUB (R254). -/
def execVsub (h : VHd) (d a b : BitVec 6) (s : State) : Out := vbin h d a b 3 s fmtArith (elSub)
/-- VMUL (R254). -/
def execVmul (h : VHd) (d a b : BitVec 6) (s : State) : Out := vbin h d a b 5 s fmtArith (elMul)
/-- VMIN (R254). -/
def execVmin (h : VHd) (d a b : BitVec 6) (s : State) : Out := vbin h d a b 3 s fmtArith (fun f => elMinMax f false)
/-- VMAX (R254). -/
def execVmax (h : VHd) (d a b : BitVec 6) (s : State) : Out := vbin h d a b 3 s fmtArith (fun f => elMinMax f true)
/-- VFMA (R254). -/
def execVfma (h : VHd) (d a b : BitVec 6) (s : State) : Out := vtri h d a b 5 s elFma
/-- VFMS (R254). -/
def execVfms (h : VHd) (d a b : BitVec 6) (s : State) : Out := vtri h d a b 5 s elFms
/-- One element of VABS or VNEG (R256): the sign bit alone for floating formats. -/
def elSign (neg : Bool) (f : Word) (c x : Nat) : Nat × Flags :=
  if isFloat c then
    let sb := 2 ^ (elemBits c - 1)
    (if neg then x ^^^ sb else x % sb, 0)
  else
    let v := intOf c x
    reduceInt c (fmtSAT f) (if neg then -v else v.natAbs)
/-- VABS (R256). -/
def execVabs (h : VHd) (d a : BitVec 6) (s : State) : Out := vun h d a 3 s fmtArith (elSign false)
/-- VNEG (R256). -/
def execVneg (h : VHd) (d a : BitVec 6) (s : State) : Out := vun h d a 3 s fmtArith (elSign true)
/-- VAND (R257). -/
def execVand (h : VHd) (d a b : BitVec 6) (s : State) : Out := vbin h d a b 3 s fmtAny fun _ _ x y => (x &&& y, 0)
/-- VOR (R257). -/
def execVor (h : VHd) (d a b : BitVec 6) (s : State) : Out := vbin h d a b 3 s fmtAny fun _ _ x y => (x ||| y, 0)
/-- VXOR (R257). -/
def execVxor (h : VHd) (d a b : BitVec 6) (s : State) : Out := vbin h d a b 3 s fmtAny fun _ _ x y => (x ^^^ y, 0)
/-- VANDN (R257). -/
def execVandn (h : VHd) (d a b : BitVec 6) (s : State) : Out := vbin h d a b 3 s fmtAny fun _ c x y => (x &&& ((2 ^ elemBits c - 1) ^^^ y), 0)
/-- One lane of VSAR (R258). -/
def laneSar (w x y : Nat) : Nat := wrap (sextN x w / 2 ^ min y w) w
/-- VSHL (R258). -/
def execVshl (h : VHd) (d a b : BitVec 6) (s : State) : Out :=
  vbin h d a b 3 s fmtBits fun _ c x y => (if elemBits c ≤ y then 0 else x <<< y % 2 ^ elemBits c, 0)
/-- VSHR (R258). -/
def execVshr (h : VHd) (d a b : BitVec 6) (s : State) : Out :=
  vbin h d a b 3 s fmtBits fun _ c x y => (if elemBits c ≤ y then 0 else x >>> y, 0)
/-- VSAR (R258). -/
def execVsar (h : VHd) (d a b : BitVec 6) (s : State) : Out :=
  vbin h d a b 3 s fmtBits fun _ c x y => (laneSar (elemBits c) x y, 0)
/-- A compare of two elements: by number for floating formats, by value for integers (R259). -/
def elRel (r : Rel) (f : Word) (c x y : Nat) : Bool × Flags :=
  if isFloat c then extRel r (src f c x) (src f c y)
  else match r with
    | .eq => (decide (x = y), 0)
    | .lt => (decide (intOf c x < intOf c y), 0)
    | _ => (decide (intOf c x ≤ intOf c y), 0)
/-- VCMPEQ (R259). -/
def execVcmpeq (h : VHd) (k : BitVec 3) (a b : BitVec 6) (s : State) : Out := vcmp h k a b s fmtEq (elRel .eq)
/-- VCMPLT (R259). -/
def execVcmplt (h : VHd) (k : BitVec 3) (a b : BitVec 6) (s : State) : Out := vcmp h k a b s fmtArith (elRel .lt)
/-- VCMPLE (R259). -/
def execVcmple (h : VHd) (k : BitVec 3) (a b : BitVec 6) (s : State) : Out := vcmp h k a b s fmtArith (elRel .le)
/-- VCMPLTU (R259). -/
def execVcmpltu (h : VHd) (k : BitVec 3) (a b : BitVec 6) (s : State) : Out :=
  vcmp h k a b s fmtBits fun _ _ x y => (decide (x < y), 0)
/-- VCMPLEU (R259). -/
def execVcmpleu (h : VHd) (k : BitVec 3) (a b : BitVec 6) (s : State) : Out :=
  vcmp h k a b s fmtBits fun _ _ x y => (decide (x ≤ y), 0)
/-- VCVT (R262). -/
def execVcvt (h : VHd) (d a : BitVec 6) (f : BitVec 4) (s : State) : Out :=
  vslot h s (s.vreg h.cl d.toNat) (fun c => fmtArith c && fmtArith f.toNat) fun s c w _ =>
    let t := f.toNat
    s.vlanes h 4 d (elemBits t) ((toLanes (s.rv h.cl a.toNat) w (vwidth h / max w (elemBits t))).map (elCvt s.fmt c t))
/-- The widths VQDX accepts for a source format (R263). -/
def qdxOk (c w : Nat) : Bool :=
  match c with
  | 0 => w == 1024
  | 1 | 2 => w == 512 || w == 1024
  | 3 | 4 => w == 256 || w == 512
  | _ => false
/-- The blocks of VQDX: element planes from bit 0, exponents from byte 64 (R263). -/
def qdxBlocks (t : Nat) : Nat → List Ext → Nat × Flags
  | _, [] => (0, 0)
  | b, x :: xs =>
    if 32 ≤ (x :: xs).length then
      let (lo, hi, els, fl) := quantise t ((x :: xs).take 32)
      let pl := ofLanes (elemBits t) els <<< (32 * elemBits t * b)
      let sc := (lo + 256 * hi) <<< (8 * (64 + 2 * b))
      if b = 0 then
        if 64 ≤ (x :: xs).length then
          let (lo', hi', els', fl') := quantise t ((x :: xs).drop 32)
          (pl + sc + ofLanes (elemBits t) els' <<< (32 * elemBits t) + (lo' + 256 * hi') <<< (8 * 66), fl ||| fl')
        else (pl + sc, fl)
      else (pl + sc, fl)
    else (0, 0)
/-- VQDX (R263): all 1024 bits of D are written. -/
def execVqdx (h : VHd) (d a : BitVec 6) (f : BitVec 4) (s : State) : Out :=
  vslot h s (s.vreg h.cl d.toNat) (fun c => qdxOk c (vwidth h)) fun s c w n =>
    let r := qdxBlocks f.toNat 0 ((s.va h a w n).map (toExt c false))
    s.vresult h 4 d 1024 r.1 r.2
/-- VPERMB (R265). -/
def execVpermb (h : VHd) (d a b : BitVec 6) (s : State) : Out :=
  slot h.q s fun s =>
    let n := vwidth h / 8
    let A := s.rv h.cl a.toNat
    s.vlanes h 3 d 8 ((toLanes (s.rv h.cl b.toNat) 8 n).map fun x => (if 128 ≤ x then 0 else lane A 8 (x % n), 0))
/-- VSHUF (R265): lanes of 8 bits or more. -/
def execVshuf (h : VHd) (d a b : BitVec 6) (s : State) : Out :=
  vslot h s (s.vreg h.cl d.toNat) (fun c => decide (8 ≤ elemBits c)) fun s _ w n =>
    let A := s.rv h.cl a.toNat
    s.vlanes h 3 d w ((toLanes (s.rv h.cl b.toNat) w n).map fun x => (if x < n then lane A w x else 0, 0))
/-- VBCAST (R266). -/
def execVbcast (h : VHd) (d a l : BitVec 6) (s : State) : Out :=
  vslot h s (s.vreg h.cl d.toNat) fmtAny fun s _ w n =>
    let x := if vbcast h then (s.rs l.toNat).toNat % 2 ^ w else if l.toNat < n then lane (s.rv h.cl a.toNat) w l.toNat else 0
    s.vlanes h 3 d w (List.replicate n (x, 0))
/-- VEXTS (R266): sign-extended for INT formats. -/
def execVexts (h : VHd) (d a l : BitVec 6) (s : State) : Out :=
  vslot h s (.s d.toNat) fmtAny fun s c w n =>
    let i := if vbcast h then (s.rs l.toNat).toNat else l.toNat
    let x := if i < n then lane (s.rv h.cl a.toNat) w i else 0
    s.resultS 3 d.toNat (if isSInt c then BitVec.ofInt 64 (sextN x w) else BitVec.ofNat 64 x)
/-- VINS (R266): the A field is the lane. -/
def execVins (h : VHd) (d l b : BitVec 6) (s : State) : Out :=
  vslot h s (s.vreg h.cl d.toNat) fmtAny fun s _ w n =>
    let D := s.rv h.cl d.toNat
    s.vresult h 3 d 1024 (if l.toNat < n then setLane D w l.toNat (s.rs b.toNat).toNat else D)
/-- VIOTA (R267). -/
def execViota (h : VHd) (d : BitVec 6) (s : State) : Out :=
  vslot h s (s.vreg h.cl d.toNat) fmtArith fun s c w n => s.vlanes h 3 d w ((List.range n).map fun (i : Nat) => finish s.fmt c (ofInt i))
/-- A reduction into lane 0 (R268). -/
def vreduce (h : VHd) (d a : BitVec 6) (k : BitVec 3) (op : Nat) (s : State) : Out :=
  vslot h s (s.vreg h.cl d.toNat) fmtArith fun s c w n =>
    let r := redTree s.fmt c op 8 (s.maskedLanes h a k w n)
    s.vresult h 6 d w r.1 r.2
/-- VRSUM (R268). -/
def execVrsum (h : VHd) (d a : BitVec 6) (k : BitVec 3) (s : State) : Out := vreduce h d a k 0 s
/-- VRMIN (R268). -/
def execVrmin (h : VHd) (d a : BitVec 6) (k : BitVec 3) (s : State) : Out := vreduce h d a k 1 s
/-- VRMAX (R268). -/
def execVrmax (h : VHd) (d a : BitVec 6) (k : BitVec 3) (s : State) : Out := vreduce h d a k 2 s
/-- VSCAN (R269). -/
def execVscan (h : VHd) (d a : BitVec 6) (o : BitVec 2) (k : BitVec 3) (s : State) : Out :=
  vslot h s (s.vreg h.cl d.toNat) fmtArith fun s c w n =>
    let r := scanFrom s.fmt c o.toNat none (s.maskedLanes h a k w n)
    s.vresult h 6 d (w * n) (ofLanes w r.1) r.2
/-- VEXP2 (R270, R111). -/
def execVexp2 (h : VHd) (d a : BitVec 6) (s : State) : Out := vun h d a 9 s fmtSpecial (elSpecial 0)
/-- VLOG2 (R270, R111). -/
def execVlog2 (h : VHd) (d a : BitVec 6) (s : State) : Out := vun h d a 9 s fmtSpecial (elSpecial 1)
/-- VRCP (R270, R111). -/
def execVrcp (h : VHd) (d a : BitVec 6) (s : State) : Out := vun h d a 9 s fmtSpecial (elSpecial 2)
/-- VRSQ (R270, R111). -/
def execVrsq (h : VHd) (d a : BitVec 6) (s : State) : Out := vun h d a 9 s fmtSpecial (elSpecial 3)
/-- VSQRT (R270, R111). -/
def execVsqrt (h : VHd) (d a : BitVec 6) (s : State) : Out := vun h d a 9 s fmtSpecial (elSpecial 4)
/-- VLD (R271). -/
def execVld (h : VHd) (d a : BitVec 6) (z f : BitVec 3) (s : State) : Out :=
  slot h.q s fun s =>
    let n := vwidth h / 8
    s.access ((localEA (s.rs a.toNat) (f.toNat * n) n (2 ^ 22)).map fun ea => swz ea z.toNat) n false [s.vreg h.cl d.toNat] fun s x =>
      s.vresult h 6 d (vwidth h) (leNat (s.spadRead x n))
/-- VST (R271): D holds the data. -/
def execVst (h : VHd) (d a : BitVec 6) (z f : BitVec 3) (s : State) : Out :=
  slot h.q s fun s =>
    let n := vwidth h / 8
    s.access ((localEA (s.rs a.toNat) (f.toNat * n) n (2 ^ 22)).map fun ea => swz ea z.toNat) n true [] fun s x =>
      s.spadStore x (leBytes n (s.rv h.cl d.toNat))
/-- VLDA (R272). -/
def execVlda (h : VHd) (d a : BitVec 6) (f : BitVec 3) (s : State) : Out :=
  slot h.q s fun s =>
    let n := vwidth h / 8
    s.accAccess (localEA (s.rs a.toNat) (f.toNat * n) n (2 ^ 20)) [s.vreg h.cl d.toNat] fun s ea =>
      s.vresult h 6 d (vwidth h) (leNat (s.accRead ea n))
/-- VSTA (R272). -/
def execVsta (h : VHd) (d a : BitVec 6) (f : BitVec 3) (s : State) : Out :=
  slot h.q s fun s =>
    let n := vwidth h / 8
    s.accAccess (localEA (s.rs a.toNat) (f.toNat * n) n (2 ^ 20)) [] fun s ea => s.accStore ea (leBytes n (s.rv h.cl d.toNat))
/-- A VLDC of handle `u` blocks: its CBSET is not in effect or its line is not filled (R273). -/
def State.vldcBlocks (s : State) (u l : BitVec 4) : Bool := !(s.cb u.toNat).readReady l.toNat
/-- A VSTC of handle `u` blocks: its CBSET is not in effect or its line is not free. -/
def State.vstcBlocks (s : State) (u l : BitVec 4) : Bool := !(s.cb u.toNat).writeReady l.toNat
/-- VLDC (R273): the line is a consumer's; q is the 128-byte quarter. -/
def execVldc (h : VHd) (d : BitVec 6) (u l : BitVec 4) (x : BitVec 2) (s : State) : Out :=
  slotOr h.q s (fun s => s.vldcBlocks u l) fun s =>
    let n := vwidth h / 8
    s.access (some ((s.cb u.toNat).readLine l.toNat + 128 * x.toNat)) n false [s.vreg h.cl d.toNat] fun s ea =>
      s.vresult h 6 d (vwidth h) (leNat (s.spadRead ea n))
/-- The producer of handle `u` is the copy engine: a CPYC of it has issued since its last CBSET (R140). -/
def State.engineFeeds (s : State) (u : Nat) : Bool := (s.cb u).eng || s.ctx.q.cmds.any fun k => k.kind == 3 && k.cb == u
/-- VSTC (R273): the line is the program producer's; with the copy engine as producer the content of the whole line is undefined. -/
def execVstc (h : VHd) (d : BitVec 6) (u l : BitVec 4) (x : BitVec 2) (s : State) : Out :=
  slotOr h.q s (fun s => s.vstcBlocks u l) fun s =>
    let n := vwidth h / 8
    let line := (s.cb u.toNat).writeLine l.toNat
    s.access (some (line + 128 * x.toNat)) n true [] fun s ea =>
      if s.engineFeeds u.toNat then s.spadStore line ((rangeFrom line 512).map fun a => BitVec.ofNat 8 (s.free (2 ^ 24 + a) 8))
      else s.spadStore ea (leBytes n (s.rv h.cl d.toNat))
/-- VCOPY (R275): the source is the other cluster's. -/
def execVcopy (h : VHd) (d a : BitVec 6) (s : State) : Out :=
  slot h.q s fun s => s.vresult h 2 d (vwidth h) (s.rv (!h.cl) a.toNat)
/-- The low `n` bits of a mask (R261). -/
def State.maskBits (s : State) (h : VHd) (k : BitVec 3) : Nat := s.rk h.cl k.toNat % 2 ^ (vwidth h / elemBits (s.vf h.cl))
/-- VANY (R261). -/
def execVany (h : VHd) (p k : BitVec 3) (s : State) : Out :=
  slot h.q s fun s => s.result 3 (.p p.toNat) (.bits (decide (s.maskBits h k ≠ 0)).toNat)
/-- VALL (R261). -/
def execVall (h : VHd) (p k : BitVec 3) (s : State) : Out :=
  slot h.q s fun s =>
    s.result 3 (.p p.toNat) (.bits (decide (s.maskBits h k + 1 = 2 ^ (vwidth h / elemBits (s.vf h.cl)))).toNat)
/-- VKOP (R261). -/
def execVkop (h : VHd) (o m x y : BitVec 3) (s : State) : Out :=
  vslot h s (.k h.cl m.toNat) fmtAny fun s _ _ n =>
    let r := logicW o 256 (s.rk h.cl x.toNat) (s.rk h.cl y.toNat)
    s.vmask h 3 m ((toLanes r 1 n).map fun b => decide (b = 1))
/-- VKPOP (R261). -/
def execVkpop (h : VHd) (d : BitVec 6) (k : BitVec 3) (s : State) : Out :=
  vslot h s (s.vreg h.cl d.toNat) fmtArith fun s c w n =>
    s.vlanes h 3 d w (List.replicate n (finish s.fmt c (ofInt (popcount (s.maskBits h k) n))))
/-- VUNPK (R264): element part × n + i of the packed format to lane i. -/
def execVunpk (h : VHd) (d a : BitVec 6) (t : BitVec 2) (f : BitVec 4) (s : State) : Out :=
  vslot h s (s.vreg h.cl d.toNat) fmtArith fun s c w n =>
    let pf := f.toNat
    let A := s.rv h.cl a.toNat
    s.vlanes h 4 d w ((List.range n).map fun i =>
      let j := t.toNat * n + i
      elCvt s.fmt pf c (if 1024 / elemBits pf ≤ j then 0 else lane A (elemBits pf) j))
/-- VPACK (R264): lane i to element part × n + i of the packed format; the other bits of D stay. -/
def execVpack (h : VHd) (d a : BitVec 6) (t : BitVec 2) (f : BitVec 4) (s : State) : Out :=
  vslot h s (s.vreg h.cl d.toNat) fmtArith fun s c w n =>
    let pf := f.toNat
    let r := (((s.va h a w n).map (elCvt s.fmt c pf)).zipIdx).foldl
      (fun (x : Nat × Flags) e =>
        let j := t.toNat * n + e.2
        if 1024 / elemBits pf ≤ j then x else (setLane x.1 (elemBits pf) j e.1.1, x.2 ||| e.1.2))
      (s.rv h.cl d.toNat, 0)
    s.vresult h 4 d 1024 r.1 r.2
/-- VMULH (R255). -/
def execVmulh (h : VHd) (d a b : BitVec 6) (s : State) : Out :=
  vbin h d a b 5 s isInt fun _ c x y => (wrap (intOf c x * intOf c y / 2 ^ elemBits c) (elemBits c), 0)
/-- VPOPC (R261). -/
def execVpopc (h : VHd) (d a : BitVec 6) (s : State) : Out :=
  vun h d a 3 s fmtBits fun _ c x => (popcount x (elemBits c) % 2 ^ elemBits c, 0)
/-- VSEL (R260). -/
def execVsel (h : VHd) (m : BitVec 3) (d a b : BitVec 6) (s : State) : Out :=
  vslot h s (s.vreg h.cl d.toNat) fmtAny fun s _ w n =>
    let k := s.rk h.cl m.toNat
    s.vlanes h 3 d w ((List.zip (s.va h a w n) (s.vb h b w n)).zipIdx.map fun e => (if k.testBit e.2 then e.1.1 else e.1.2, 0))

end Sys2Proof.Machine
end

