-- ==== Sys2Proof/Machine/Blocked.lean ====
section
/-! DEFINITION. What holds a bundle back, which contexts are ready, and the context switch (R23, R52, R60, R66, R84, R314). -/

namespace Sys2Proof.Machine

/-! ### Slots that block (R60) -/

/-- A WAITF that has not decided holds its bundle; a misaligned one, or one without room in the undo log, does not, it faults (R81, R314). -/
def State.waitfHolds (s : State) (k : BitVec 3) (a : BitVec 6) : Bool :=
  match s.ctx.pipe.waitf with
  | none => decide (s.rva a % 8 = 0) && !s.undoFull [.p k.toNat]
  | some w => w.result.isNone

/-- What an instruction that issues waits for. -/
def held (i : Instr) (s : State) : Bool :=
  match i with
  | .lpop .. => s.lpopBlocks
  | .gpop .. => s.gpopBlocks
  | .fwr _ p k r c => s.fwrBlocks p k r c
  | .frd _ p k _ _ => s.frdBlocks p k
  | .cpy .. | .cpyt .. | .cpym .. | .cpyc .. | .cbset .. => s.copyFull
  | .cbadvR _ b _ => s.cbPending b
  | .cbadvW _ b n => s.cbadvwBlocks b n
  | .cbwait _ b n => s.cbwaitBlocks b n
  | .tlwait _ c o x i n => decide (s.tlDone c o x < s.tlwaitN c o x i n)
  | .tllag _ c o x i n => decide (s.tlDone c o x < s.tllagN c o x i n)
  | .ckpt .. | .atomr .. | .atomx .. | .deal .. | .gbar .. | .sqfork .. | .sqapp .. | .sqcommit .. | .sqtrunc .. | .sqcur .. | .sqframe ..
  | .syswr .. | .watch .. | .trap .. | .eret .. => s.ckptFull
  | .bkpt .. => s.bkptBlocks
  | .taskend .. => s.taskendBlocks
  | .coll .. => decide (4 ≤ s.ctx.q.colls.length)
  | .flagw .. => decide (8 ≤ s.ctx.q.flagws.length)
  | .mclr .. => s.mclrBlocks
  | .mpush _ a b m l k e => s.pushBlocks false a b m l k e
  | .mpushz _ a b m l k e => s.pushBlocks true a b m l k e
  | .mshift .. | .mdrain .. | .mscout .. | .mcell .. | .mcfg .. | .mthr .. => s.mBlocks true
  | .tmop .. | .mrel .. => s.mBlocks false
  | .srnd _ g _ => s.srndBlocks g
  | .vldc _ _ u l _ => s.vldcBlocks u l
  | .vstc _ _ u l _ => s.vstcBlocks u l
  | .waitf _ k a => s.waitfHolds k a
  | _ => false
/-- The slot of an instruction blocks: its qualifier lets it issue, and what it waits for is not there. -/
def blocked (i : Instr) (s : State) : Bool := s.qIssues i.hd.q && held i s

/-- A slot becomes the slot in issue. -/
def State.atSlot (s : State) (x : Slot) : State := s.modCtx fun c => { c with cur := x }
/-- No slot of the latched bundle blocks as the state stands. -/
def State.slotsFree (s : State) : Bool :=
  s.ctx.latch.all fun x => match instrOf x.word with | some i => !blocked i (s.atSlot x) | none => true
/-- The WAITF of the latched bundle that has not become active, if nothing else holds the bundle (R314). -/
def State.waitfNew (s : State) : Option (Slot × BitVec 3 × BitVec 6) :=
  if s.ctx.pipe.waitf.isSome then none
  else
    let waitf (x : Slot) : Option (Slot × BitVec 3 × BitVec 6) := match instrOf x.word with
      | some (.waitf h k a) => if (s.atSlot x).qIssues h.q && s.waitfHolds k a then some (x, k, a) else none
      | _ => none
    match s.ctx.latch.findSome? waitf with
    | none => none
    | some w =>
      if s.ctx.latch.all fun x => (waitf x).isSome || (match instrOf x.word with | some i => !blocked i (s.atSlot x) | none => true) then some w
      else none

/-! ### Contexts that may issue -/

/-- A restart point at which the context is to stop (R52): the next bundle follows a pre-emption point. -/
def Ctx.atStop (c : Ctx) : Bool := (c.pipe.restart :: c.pipe.cks).any fun k => k.snap && decide (k.ser + 1 = c.pipe.ser)
/-- Firmware withholds this cycle of the core (R23). -/
def State.withheld (s : State) : Bool := !decide (s.cyc * s.die.limit.1 % s.die.limit.2 < s.die.limit.1)
/-- The context in focus is free to issue, whatever its next bundle is. -/
def State.mayIssue (s : State) : Bool :=
  let c := s.ctx
  s.core.on && (match c.bind with | some b => !b.ended && b.swap == 0 | none => false) && c.stopping != 3 && c.pipe.fault.isNone &&
  c.pipe.wait.isEmpty && decide (c.notBefore ≤ s.cyc) && c.preDone && !(c.stopping != 0 && c.atStop)
/-- A drained transfer holds the bundle at its target (R66). -/
def State.drainHolds (s : State) : Bool := s.ctx.drain && !s.core.pipesEmpty s.sub

/-- The next bundle of a context with its slots latched, if it is a bundle at all. -/
def State.nextBundle (s : State) : Option State :=
  match s.prep with
  | .bundle t => some t
  | .kernel t => match t.ctx.ctl.kern with | some k => some (t.beginKernel k) | none => none
  | _ => none
/-- A context whose next bundle blocks in no slot as the state stands. -/
def State.seemsReady (s : State) : Bool :=
  s.mayIssue && !s.drainHolds && (match s.prep with
    | .fault _ => true
    | _ => match s.nextBundle with | some t => t.slotsFree | none => false)

/-! ### Switching (R60) -/

/-- The contexts of the core in the order in which it switches to them; one on which none has issued starts at context 0 (DESIGN CHOICE, log entry
75). -/
def Core.turnOrder (k : Core) : List Nat :=
  let c := (match k.cur with | some c => c | none => k.last.getD 3)
  [(c + 1) % 4, (c + 2) % 4, (c + 3) % 4] ++ (if k.cur.isNone then [c] else [])
/-- The switch costs two cycles, but none for the first context to issue on the core, or for the one that gave up issue and goes on. -/
def Core.switchTo (k : Core) (c : Nat) : Core :=
  { k with cur := some c, switch := if k.last = none ∨ k.cur = none ∧ k.last = some c then 0 else 2 }
/-- CONTEXT_SWITCH (R60): the core goes on with the context in focus, which is ready. -/
def execContextSwitch (s : State) : Out :=
  .next (
    let mid := match s.core.cur with | some c => !(s.core.ctx c).latch.isEmpty | none => false
    if !mid && s.core.switch == 0 && s.core.cur != some s.sub && s.seemsReady then s.modCore fun k => k.switchTo s.sub else s)

end Sys2Proof.Machine
end

