-- ==== Sys2Proof/Machine/Scalar.lean ====
section
/-! DEFINITION. The scalar instructions: integer, predicate, immediate and floating (R227 to R236). -/

namespace Sys2Proof.Machine

/-- NOP does nothing (R211). -/
def execNop (h : Hd) (s : State) : Out := slot h.q s fun s => s
/-- ADD (R229). -/
def execAdd (h : Hd) (g : BitVec 2) (d a b : BitVec 6) (s : State) : Out := intOp h g d a b 1 s fun a b => a + b
/-- SUB (R229). -/
def execSub (h : Hd) (g : BitVec 2) (d a b : BitVec 6) (s : State) : Out := intOp h g d a b 1 s fun a b => a - b
/-- MUL (R229). -/
def execMul (h : Hd) (g : BitVec 2) (d a b : BitVec 6) (s : State) : Out := intOp h g d a b 3 s fun a b => BitVec.ofInt 64 (a.toInt * b.toInt)
/-- MULH (R229). -/
def execMulh (h : Hd) (g : BitVec 2) (d a b : BitVec 6) (s : State) : Out := intOp h g d a b 3 s fun a b => BitVec.ofInt 64 (a.toInt * b.toInt / 2 ^ 64)
/-- MULHU (R229). -/
def execMulhu (h : Hd) (g : BitVec 2) (d a b : BitVec 6) (s : State) : Out := intOp h g d a b 3 s fun a b => BitVec.ofNat 64 (a.toNat * b.toNat / 2 ^ 64)
/-- DIVS (R229, R99). -/
def execDivs (h : Hd) (g : BitVec 2) (d a b : BitVec 6) (s : State) : Out := divOp h g d a b s divS
/-- DIVU (R229, R99). -/
def execDivu (h : Hd) (g : BitVec 2) (d a b : BitVec 6) (s : State) : Out := divOp h g d a b s divU
/-- REMS (R229, R99). -/
def execRems (h : Hd) (g : BitVec 2) (d a b : BitVec 6) (s : State) : Out := divOp h g d a b s remS
/-- REMU (R229, R99). -/
def execRemu (h : Hd) (g : BitVec 2) (d a b : BitVec 6) (s : State) : Out := divOp h g d a b s remU
/-- AND (R229). -/
def execAnd (h : Hd) (g : BitVec 2) (d a b : BitVec 6) (s : State) : Out := intOp h g d a b 1 s fun a b => a &&& b
/-- OR (R229). -/
def execOr (h : Hd) (g : BitVec 2) (d a b : BitVec 6) (s : State) : Out := intOp h g d a b 1 s fun a b => a ||| b
/-- XOR (R229). -/
def execXor (h : Hd) (g : BitVec 2) (d a b : BitVec 6) (s : State) : Out := intOp h g d a b 1 s fun a b => a ^^^ b
/-- ANDN (R229). -/
def execAndn (h : Hd) (g : BitVec 2) (d a b : BitVec 6) (s : State) : Out := intOp h g d a b 1 s fun a b => a &&& ~~~b
/-- SHL (R229). -/
def execShl (h : Hd) (g : BitVec 2) (d a b : BitVec 6) (s : State) : Out := intOp h g d a b 1 s fun a b => a <<< (b.toNat % 64)
/-- SHR (R229). -/
def execShr (h : Hd) (g : BitVec 2) (d a b : BitVec 6) (s : State) : Out := intOp h g d a b 1 s fun a b => a >>> (b.toNat % 64)
/-- SAR (R229). -/
def execSar (h : Hd) (g : BitVec 2) (d a b : BitVec 6) (s : State) : Out := intOp h g d a b 1 s fun a b => BitVec.sshiftRight a (b.toNat % 64)
/-- ROT (R229). -/
def execRot (h : Hd) (g : BitVec 2) (d a b : BitVec 6) (s : State) : Out := intOp h g d a b 1 s fun a b => a.rotateLeft (b.toNat % 64)
/-- MIN (R229). -/
def execMin (h : Hd) (g : BitVec 2) (d a b : BitVec 6) (s : State) : Out := intOp h g d a b 1 s fun a b => if a.toInt ≤ b.toInt then a else b
/-- MAX (R229). -/
def execMax (h : Hd) (g : BitVec 2) (d a b : BitVec 6) (s : State) : Out := intOp h g d a b 1 s fun a b => if a.toInt ≤ b.toInt then b else a
/-- MINU (R229). -/
def execMinu (h : Hd) (g : BitVec 2) (d a b : BitVec 6) (s : State) : Out := intOp h g d a b 1 s fun a b => if a.toNat ≤ b.toNat then a else b
/-- MAXU (R229). -/
def execMaxu (h : Hd) (g : BitVec 2) (d a b : BitVec 6) (s : State) : Out := intOp h g d a b 1 s fun a b => if a.toNat ≤ b.toNat then b else a
/-- CLZ (R230). -/
def execClz (h : Hd) (g : BitVec 2) (d a : BitVec 6) (s : State) : Out :=
  scalarOp h g d 1 s fun s => (BitVec.ofNat 64 (clz64 (s.rs a.toNat)), 0)
/-- POPC (R230). -/
def execPopc (h : Hd) (g : BitVec 2) (d a : BitVec 6) (s : State) : Out :=
  scalarOp h g d 1 s fun s => (BitVec.ofNat 64 (popcount (s.rs a.toNat).toNat 64), 0)
/-- SEXT (R230): the field width is B + 1. -/
def execSext (h : Hd) (g : BitVec 2) (d a n : BitVec 6) (s : State) : Out :=
  scalarOp h g d 1 s fun s => (BitVec.ofInt 64 (sextN (s.rs a.toNat).toNat (n.toNat + 1)), 0)
/-- ZEXT (R230). -/
def execZext (h : Hd) (g : BitVec 2) (d a n : BitVec 6) (s : State) : Out :=
  scalarOp h g d 1 s fun s => (BitVec.ofNat 64 ((s.rs a.toNat).toNat % 2 ^ (n.toNat + 1)), 0)
/-- SEL (R231): G selects, and the slot always writes. -/
def execSel (h : Hd) (p : BitVec 2) (d a b : BitVec 6) (s : State) : Out :=
  slot h.q s fun s => s.resultS 1 d.toNat (if s.rp p.toNat then s.rs a.toNat else s.rs b.toNat)
/-- CMP (R232). -/
def execCmp (h : Hd) (g : BitVec 2) (k c : BitVec 3) (a b : BitVec 6) (s : State) : Out :=
  guarded h g s fun s => s.result 1 (.p k.toNat) (.bits (cmpCond c (s.rs a.toNat) (s.rs b.toNat)).toNat)
/-- PLOG (R232). -/
def execPlog (h : Hd) (g : BitVec 2) (k o x y : BitVec 3) (s : State) : Out :=
  guarded h g s fun s => s.result 1 (.p k.toNat) (.bits (logic1 o (s.rp x.toNat) (s.rp y.toNat)).toNat)
/-- ADDI (R233): D is a source too. -/
def execAddi (h : Hd) (g : BitVec 2) (d : BitVec 6) (i : BitVec 12) (s : State) : Out :=
  scalarOp h g d 1 s fun s => (s.rs d.toNat + i.signExtend 64, 0)
/-- LI (R233). -/
def execLi (h : Hd) (g : BitVec 2) (d : BitVec 6) (i : BitVec 12) (s : State) : Out :=
  scalarOp h g d 1 s fun _ => (i.signExtend 64, 0)
/-- LIH (R233). -/
def execLih (h : Hd) (g : BitVec 2) (d : BitVec 6) (i : BitVec 12) (s : State) : Out :=
  scalarOp h g d 1 s fun s => (s.rs d.toNat <<< 12 ||| i.setWidth 64, 0)
/-- FADD (R234). -/
def execFadd (h : Hd) (p : BitVec 1) (d a b : BitVec 6) (s : State) : Out :=
  floatOp h d s fun s => elAdd s.fmt (fpFmt p) (fpSrc p (s.rs a.toNat)) (fpSrc p (s.rs b.toNat))
/-- FMUL (R234). -/
def execFmul (h : Hd) (p : BitVec 1) (d a b : BitVec 6) (s : State) : Out :=
  floatOp h d s fun s => elMul s.fmt (fpFmt p) (fpSrc p (s.rs a.toNat)) (fpSrc p (s.rs b.toNat))
/-- FFMA (R234): accumulates into D, one rounding. -/
def execFfma (h : Hd) (p : BitVec 1) (d a b : BitVec 6) (s : State) : Out :=
  floatOp h d s fun s =>
    elFma s.fmt (fpFmt p) (fpSrc p (s.rs a.toNat)) (fpSrc p (s.rs b.toNat)) (fpSrc p (s.rs d.toNat))
/-- FCVT (R235). -/
def execFcvt (h : Hd) (d a : BitVec 6) (c : BitVec 3) (s : State) : Out :=
  floatOp h d s fun s => fcvtVal c s.fmt (s.rs a.toNat)
/-- FCMP (R236): the predicate lands after 5 cycles. -/
def execFcmp (h : Hd) (p : BitVec 1) (k c : BitVec 3) (a b : BitVec 6) (s : State) : Out :=
  slot h.q s fun s =>
    let x := toExt (fpFmt p) (fmtDAZ s.fmt) (fpSrc p (s.rs a.toNat))
    let y := toExt (fpFmt p) (fmtDAZ s.fmt) (fpSrc p (s.rs b.toNat))
    let r := extRel (fcmpRel c) x y
    s.result 5 (.p k.toNat) (.bits r.1.toNat) 0 r.2

end Sys2Proof.Machine
end

