-- ==== Sys2Proof/Machine/Dispatch.lean ====
section
/-! DEFINITION. The dispatch: one arm per constructor of Instr. -/

namespace Sys2Proof.Machine

def exec (i : Instr) (s : State) : Host.Outcome State Fault Refusal :=
  match i with
  | .launch w => Sys2Proof.Machine.execLaunch w s
  | .suspend w => Sys2Proof.Machine.execSuspend w s
  | .resume w => Sys2Proof.Machine.execResume w s
  | .tlbinv w => Sys2Proof.Machine.execTlbinv w s
  | .retireCore w => Sys2Proof.Machine.execRetireCore w s
  | .coreRetired c => Sys2Proof.Machine.execCoreRetired c s
  | .restoreCore w => Sys2Proof.Machine.execRestoreCore w s
  | .drainDie w => Sys2Proof.Machine.execDrainDie w s
  | .undrainDie w => Sys2Proof.Machine.execUndrainDie w s
  | .bypassDie w => Sys2Proof.Machine.execBypassDie w s
  | .updateFirmware w => Sys2Proof.Machine.execUpdateFirmware w s
  | .dump w => Sys2Proof.Machine.execDump w s
  | .clearForeignDumpSlot w => Sys2Proof.Machine.execClearForeignDumpSlot w s
  | .fatalDump cause => Sys2Proof.Machine.execFatalDump cause s
  | .deviceRegisterWrite off w => Sys2Proof.Machine.execDeviceRegisterWrite off w s
  | .hostRead bar off size => Sys2Proof.Machine.execHostRead bar off size s
  | .hostWrite bar off data => Sys2Proof.Machine.execHostWrite bar off data s
  | .hostCompletion k => Sys2Proof.Machine.execHostCompletion k s
  | .loadreq pk full => Sys2Proof.Machine.execLoadreq pk full s
  | .loadresp pk => Sys2Proof.Machine.execLoadresp pk s
  | .store pk full => Sys2Proof.Machine.execStore pk full s
  | .storelast pk full => Sys2Proof.Machine.execStorelast pk full s
  | .atomic pk full => Sys2Proof.Machine.execAtomic pk full s
  | .atomicEngineApply e => Sys2Proof.Machine.execAtomicEngineApply e s
  | .atomresp pk => Sys2Proof.Machine.execAtomresp pk s
  | .collPacket pk full => Sys2Proof.Machine.execCollPacket pk full s
  | .redirect pk => Sys2Proof.Machine.execRedirect pk s
  | .nack pk => Sys2Proof.Machine.execNack pk s
  | .ack pk => Sys2Proof.Machine.execAck pk s
  | .undefinedPacket pk => Sys2Proof.Machine.execUndefinedPacket pk s
  | .retryBackoffExpiry agent tp td => Sys2Proof.Machine.execRetryBackoffExpiry agent tp td s
  | .requestTimeout agent tp td => Sys2Proof.Machine.execRequestTimeout agent tp td s
  | .cxlPortDown port => Sys2Proof.Machine.execCxlPortDown port s
  | .cxlPortUp port => Sys2Proof.Machine.execCxlPortUp port s
  | .powerLimitReport num den => Sys2Proof.Machine.execPowerLimitReport num den s
  | .pageWalkComplete root va => Sys2Proof.Machine.execPageWalkComplete root va s
  | .pageMove pn new kind => Sys2Proof.Machine.execPageMove pn new kind s
  | .spareRowRepair row => Sys2Proof.Machine.execSpareRowRepair row s
  | .regionFaultNotify blk => Sys2Proof.Machine.execRegionFaultNotify blk s
  | .preload blk => Sys2Proof.Machine.execPreload blk s
  | .contextRestore blk => Sys2Proof.Machine.execContextRestore blk s
  | .regionComplete blk => Sys2Proof.Machine.execRegionComplete blk s
  | .gangBarrierComplete blk => Sys2Proof.Machine.execGangBarrierComplete blk s
  | .cpycSlotFill num => Sys2Proof.Machine.execCpycSlotFill num s
  | .cbsetTakesEffect num => Sys2Proof.Machine.execCbsetTakesEffect num s
  | .copyComplete num => Sys2Proof.Machine.execCopyComplete num s
  | .gatherEntryWhole num => Sys2Proof.Machine.execGatherEntryWhole num s
  | .collEngineStart num => Sys2Proof.Machine.execCollEngineStart num s
  | .cipherBlockReady g => Sys2Proof.Machine.execCipherBlockReady g s
  | .nop h => Sys2Proof.Machine.execNop h s
  | .add h g d a b => Sys2Proof.Machine.execAdd h g d a b s
  | .sub h g d a b => Sys2Proof.Machine.execSub h g d a b s
  | .mul h g d a b => Sys2Proof.Machine.execMul h g d a b s
  | .mulh h g d a b => Sys2Proof.Machine.execMulh h g d a b s
  | .mulhu h g d a b => Sys2Proof.Machine.execMulhu h g d a b s
  | .divs h g d a b => Sys2Proof.Machine.execDivs h g d a b s
  | .divu h g d a b => Sys2Proof.Machine.execDivu h g d a b s
  | .rems h g d a b => Sys2Proof.Machine.execRems h g d a b s
  | .remu h g d a b => Sys2Proof.Machine.execRemu h g d a b s
  | .and h g d a b => Sys2Proof.Machine.execAnd h g d a b s
  | .or h g d a b => Sys2Proof.Machine.execOr h g d a b s
  | .xor h g d a b => Sys2Proof.Machine.execXor h g d a b s
  | .andn h g d a b => Sys2Proof.Machine.execAndn h g d a b s
  | .shl h g d a b => Sys2Proof.Machine.execShl h g d a b s
  | .shr h g d a b => Sys2Proof.Machine.execShr h g d a b s
  | .sar h g d a b => Sys2Proof.Machine.execSar h g d a b s
  | .rot h g d a b => Sys2Proof.Machine.execRot h g d a b s
  | .min h g d a b => Sys2Proof.Machine.execMin h g d a b s
  | .max h g d a b => Sys2Proof.Machine.execMax h g d a b s
  | .minu h g d a b => Sys2Proof.Machine.execMinu h g d a b s
  | .maxu h g d a b => Sys2Proof.Machine.execMaxu h g d a b s
  | .clz h g d a => Sys2Proof.Machine.execClz h g d a s
  | .popc h g d a => Sys2Proof.Machine.execPopc h g d a s
  | .sext h g d a n => Sys2Proof.Machine.execSext h g d a n s
  | .zext h g d a n => Sys2Proof.Machine.execZext h g d a n s
  | .sel h p d a b => Sys2Proof.Machine.execSel h p d a b s
  | .cmp h g k c a b => Sys2Proof.Machine.execCmp h g k c a b s
  | .plog h g k o x y => Sys2Proof.Machine.execPlog h g k o x y s
  | .addi h g d i1 => Sys2Proof.Machine.execAddi h g d i1 s
  | .li h g d i1 => Sys2Proof.Machine.execLi h g d i1 s
  | .lih h g d i1 => Sys2Proof.Machine.execLih h g d i1 s
  | .fadd h p d a b => Sys2Proof.Machine.execFadd h p d a b s
  | .fmul h p d a b => Sys2Proof.Machine.execFmul h p d a b s
  | .ffma h p d a b => Sys2Proof.Machine.execFfma h p d a b s
  | .fcvt h d a c => Sys2Proof.Machine.execFcvt h d a c s
  | .fcmp h p k c a b => Sys2Proof.Machine.execFcmp h p k c a b s
  | .br h n p e d => Sys2Proof.Machine.execBr h n p e d s
  | .brk h n c k d => Sys2Proof.Machine.execBrk h n c k d s
  | .call h n p e d => Sys2Proof.Machine.execCall h n p e d s
  | .ret h n p e => Sys2Proof.Machine.execRet h n p e s
  | .seg h n p e k r => Sys2Proof.Machine.execSeg h n p e k r s
  | .lpset h l a b => Sys2Proof.Machine.execLpset h l a b s
  | .lpstrd h l k a b => Sys2Proof.Machine.execLpstrd h l k a b s
  | .lpmod h i1 t => Sys2Proof.Machine.execLpmod h i1 t s
  | .lpmask h m => Sys2Proof.Machine.execLpmask h m s
  | .lpgo h d => Sys2Proof.Machine.execLpgo h d s
  | .lpbrk h n p e d => Sys2Proof.Machine.execLpbrk h n p e d s
  | .lpidx h g d l => Sys2Proof.Machine.execLpidx h g d l s
  | .ckpt h => Sys2Proof.Machine.execCkpt h s
  | .yield h => Sys2Proof.Machine.execYield h s
  | .taskend h => Sys2Proof.Machine.execTaskend h s
  | .vmov h d a => Sys2Proof.Machine.execVmov h d a s
  | .vadd h d a b => Sys2Proof.Machine.execVadd h d a b s
  | .vsub h d a b => Sys2Proof.Machine.execVsub h d a b s
  | .vmul h d a b => Sys2Proof.Machine.execVmul h d a b s
  | .vfma h d a b => Sys2Proof.Machine.execVfma h d a b s
  | .vfms h d a b => Sys2Proof.Machine.execVfms h d a b s
  | .vmin h d a b => Sys2Proof.Machine.execVmin h d a b s
  | .vmax h d a b => Sys2Proof.Machine.execVmax h d a b s
  | .vabs h d a => Sys2Proof.Machine.execVabs h d a s
  | .vneg h d a => Sys2Proof.Machine.execVneg h d a s
  | .vand h d a b => Sys2Proof.Machine.execVand h d a b s
  | .vor h d a b => Sys2Proof.Machine.execVor h d a b s
  | .vxor h d a b => Sys2Proof.Machine.execVxor h d a b s
  | .vandn h d a b => Sys2Proof.Machine.execVandn h d a b s
  | .vshl h d a b => Sys2Proof.Machine.execVshl h d a b s
  | .vshr h d a b => Sys2Proof.Machine.execVshr h d a b s
  | .vsar h d a b => Sys2Proof.Machine.execVsar h d a b s
  | .vcmpeq h k a b => Sys2Proof.Machine.execVcmpeq h k a b s
  | .vcmplt h k a b => Sys2Proof.Machine.execVcmplt h k a b s
  | .vcmple h k a b => Sys2Proof.Machine.execVcmple h k a b s
  | .vcmpltu h k a b => Sys2Proof.Machine.execVcmpltu h k a b s
  | .vcmpleu h k a b => Sys2Proof.Machine.execVcmpleu h k a b s
  | .vcvt h d a f => Sys2Proof.Machine.execVcvt h d a f s
  | .vqdx h d a f => Sys2Proof.Machine.execVqdx h d a f s
  | .vpermb h d a b => Sys2Proof.Machine.execVpermb h d a b s
  | .vshuf h d a b => Sys2Proof.Machine.execVshuf h d a b s
  | .vbcast h d a l => Sys2Proof.Machine.execVbcast h d a l s
  | .vexts h d a l => Sys2Proof.Machine.execVexts h d a l s
  | .vins h d l b => Sys2Proof.Machine.execVins h d l b s
  | .viota h d => Sys2Proof.Machine.execViota h d s
  | .vrsum h d a k => Sys2Proof.Machine.execVrsum h d a k s
  | .vrmin h d a k => Sys2Proof.Machine.execVrmin h d a k s
  | .vrmax h d a k => Sys2Proof.Machine.execVrmax h d a k s
  | .vscan h d a o k => Sys2Proof.Machine.execVscan h d a o k s
  | .vexp2 h d a => Sys2Proof.Machine.execVexp2 h d a s
  | .vlog2 h d a => Sys2Proof.Machine.execVlog2 h d a s
  | .vrcp h d a => Sys2Proof.Machine.execVrcp h d a s
  | .vrsq h d a => Sys2Proof.Machine.execVrsq h d a s
  | .vsqrt h d a => Sys2Proof.Machine.execVsqrt h d a s
  | .vld h d a z f => Sys2Proof.Machine.execVld h d a z f s
  | .vst h d a z f => Sys2Proof.Machine.execVst h d a z f s
  | .vlda h d a f => Sys2Proof.Machine.execVlda h d a f s
  | .vsta h d a f => Sys2Proof.Machine.execVsta h d a f s
  | .vldc h d u l x => Sys2Proof.Machine.execVldc h d u l x s
  | .vstc h d u l x => Sys2Proof.Machine.execVstc h d u l x s
  | .vcopy h d a => Sys2Proof.Machine.execVcopy h d a s
  | .vany h p k => Sys2Proof.Machine.execVany h p k s
  | .vall h p k => Sys2Proof.Machine.execVall h p k s
  | .vkop h o m x y => Sys2Proof.Machine.execVkop h o m x y s
  | .vkpop h d k => Sys2Proof.Machine.execVkpop h d k s
  | .vunpk h d a t f => Sys2Proof.Machine.execVunpk h d a t f s
  | .vpack h d a t f => Sys2Proof.Machine.execVpack h d a t f s
  | .vmulh h d a b => Sys2Proof.Machine.execVmulh h d a b s
  | .vpopc h d a => Sys2Proof.Machine.execVpopc h d a s
  | .vsel h m d a b => Sys2Proof.Machine.execVsel h m d a b s
  | .mclr h => Sys2Proof.Machine.execMclr h s
  | .mpush h a b m l k e => Sys2Proof.Machine.execMpush h a b m l k e s
  | .mpushz h a b m l k e => Sys2Proof.Machine.execMpushz h a b m l k e s
  | .mshift h a t => Sys2Proof.Machine.execMshift h a t s
  | .mdrain h a => Sys2Proof.Machine.execMdrain h a s
  | .mscout h d i1 => Sys2Proof.Machine.execMscout h d i1 s
  | .mcell h a => Sys2Proof.Machine.execMcell h a s
  | .mcfg h a => Sys2Proof.Machine.execMcfg h a s
  | .mthr h a => Sys2Proof.Machine.execMthr h a s
  | .tmop h d a b o => Sys2Proof.Machine.execTmop h d a b o s
  | .mrel h => Sys2Proof.Machine.execMrel h s
  | .lds h n d a f => Sys2Proof.Machine.execLds h n d a f s
  | .sts h n d a f => Sys2Proof.Machine.execSts h n d a f s
  | .ldg h n a => Sys2Proof.Machine.execLdg h n a s
  | .ldga h n a => Sys2Proof.Machine.execLdga h n a s
  | .lpop h f d => Sys2Proof.Machine.execLpop h f d s
  | .stg h n c a d => Sys2Proof.Machine.execStg h n c a d s
  | .stgr h n c p a d => Sys2Proof.Machine.execStgr h n c p a d s
  | .gpush h c a x => Sys2Proof.Machine.execGpush h c a x s
  | .gpop h c d => Sys2Proof.Machine.execGpop h c d s
  | .scat h c d a x => Sys2Proof.Machine.execScat h c d a x s
  | .qdrop h u n => Sys2Proof.Machine.execQdrop h u n s
  | .qcnt h u d => Sys2Proof.Machine.execQcnt h u d s
  | .tlook h d a => Sys2Proof.Machine.execTlook h d a s
  | .tset h w a b => Sys2Proof.Machine.execTset h w a b s
  | .tclr h w a => Sys2Proof.Machine.execTclr h w a s
  | .fwr h p k r c => Sys2Proof.Machine.execFwr h p k r c s
  | .frd h p k r c => Sys2Proof.Machine.execFrd h p k r c s
  | .fcnt h p d => Sys2Proof.Machine.execFcnt h p d s
  | .cpy h a => Sys2Proof.Machine.execCpy h a s
  | .cpyt h a => Sys2Proof.Machine.execCpyt h a s
  | .cpym h m a => Sys2Proof.Machine.execCpym h m a s
  | .cpyc h b a => Sys2Proof.Machine.execCpyc h b a s
  | .cbset h b a => Sys2Proof.Machine.execCbset h b a s
  | .cbadvR h b n => Sys2Proof.Machine.execCbadvR h b n s
  | .cbadvW h b n => Sys2Proof.Machine.execCbadvW h b n s
  | .cbwait h b n => Sys2Proof.Machine.execCbwait h b n s
  | .tlrd h c o x d => Sys2Proof.Machine.execTlrd h c o x d s
  | .tlwait h c o x i1 n => Sys2Proof.Machine.execTlwait h c o x i1 n s
  | .tllag h c o x i1 n => Sys2Proof.Machine.execTllag h c o x i1 n s
  | .qmark h => Sys2Proof.Machine.execQmark h s
  | .fence h p => Sys2Proof.Machine.execFence h p s
  | .atom h o t a => Sys2Proof.Machine.execAtom h o t a s
  | .atomr h o t a d => Sys2Proof.Machine.execAtomr h o t a d s
  | .atomx h o t a d => Sys2Proof.Machine.execAtomx h o t a d s
  | .deal h d => Sys2Proof.Machine.execDeal h d s
  | .gbar h => Sys2Proof.Machine.execGbar h s
  | .coll h a => Sys2Proof.Machine.execColl h a s
  | .waitf h k a => Sys2Proof.Machine.execWaitf h k a s
  | .flagw h m p a => Sys2Proof.Machine.execFlagw h m p a s
  | .hclr h hn => Sys2Proof.Machine.execHclr h hn s
  | .smerge h hn c k a b => Sys2Proof.Machine.execSmerge h hn c k a b s
  | .hrd h hn c f x d => Sys2Proof.Machine.execHrd h hn c f x d s
  | .hwr h hn c x a => Sys2Proof.Machine.execHwr h hn c x a s
  | .ssort h c k a d => Sys2Proof.Machine.execSsort h c k a d s
  | .spick h hn a d => Sys2Proof.Machine.execSpick h hn a d s
  | .srnd h g d => Sys2Proof.Machine.execSrnd h g d s
  | .sradd h g a => Sys2Proof.Machine.execSradd h g a s
  | .srld h g a => Sys2Proof.Machine.execSrld h g a s
  | .srst h g a => Sys2Proof.Machine.execSrst h g a s
  | .suni h a d => Sys2Proof.Machine.execSuni h a d s
  | .sacc h k a => Sys2Proof.Machine.execSacc h k a s
  | .sqfork h c a d => Sys2Proof.Machine.execSqfork h c a d s
  | .sqapp h c a d => Sys2Proof.Machine.execSqapp h c a d s
  | .sqcommit h c a d => Sys2Proof.Machine.execSqcommit h c a d s
  | .sqtrunc h a d => Sys2Proof.Machine.execSqtrunc h a d s
  | .sqcur h a d => Sys2Proof.Machine.execSqcur h a d s
  | .sqframe h a d => Sys2Proof.Machine.execSqframe h a d s
  | .fmtw h a => Sys2Proof.Machine.execFmtw h a s
  | .fmtr h d => Sys2Proof.Machine.execFmtr h d s
  | .sysrd h d n => Sys2Proof.Machine.execSysrd h d n s
  | .syswr h r n => Sys2Proof.Machine.execSyswr h r n s
  | .isaq h d sl => Sys2Proof.Machine.execIsaq h d sl s
  | .cyc h d => Sys2Proof.Machine.execCyc h d s
  | .trap h c => Sys2Proof.Machine.execTrap h c s
  | .eret h => Sys2Proof.Machine.execEret h s
  | .watch h w a => Sys2Proof.Machine.execWatch h w a s
  | .bkpt h c => Sys2Proof.Machine.execBkpt h c s
  | .powerOn => Sys2Proof.Machine.execPowerOn s
  | .resetAssert => Sys2Proof.Machine.execResetAssert s
  | .bootImageFetch => Sys2Proof.Machine.execBootImageFetch s
  | .bootImageTimeout => Sys2Proof.Machine.execBootImageTimeout s
  | .quote => Sys2Proof.Machine.execQuote s
  | .loadKeySlot => Sys2Proof.Machine.execLoadKeySlot s
  | .clearKeySlot => Sys2Proof.Machine.execClearKeySlot s
  | .tlbInvalidationComplete => Sys2Proof.Machine.execTlbInvalidationComplete s
  | .dieDrained => Sys2Proof.Machine.execDieDrained s
  | .heartbeatTimeout => Sys2Proof.Machine.execHeartbeatTimeout s
  | .resultLanding => Sys2Proof.Machine.execResultLanding s
  | .checkpointConfirm => Sys2Proof.Machine.execCheckpointConfirm s
  | .storeQueueSend => Sys2Proof.Machine.execStoreQueueSend s
  | .contextSwitch => Sys2Proof.Machine.execContextSwitch s
  | .faultReport => Sys2Proof.Machine.execFaultReport s
  | .moduloKernelCycle => Sys2Proof.Machine.execModuloKernelCycle s
  | .segmentPrefetchComplete => Sys2Proof.Machine.execSegmentPrefetchComplete s
  | .arrayItemEntry => Sys2Proof.Machine.execArrayItemEntry s
  | .beatSettle => Sys2Proof.Machine.execBeatSettle s
  | .edgeRowLanding => Sys2Proof.Machine.execEdgeRowLanding s
  | .drainLanding => Sys2Proof.Machine.execDrainLanding s
  | .arrayOwnershipEnd => Sys2Proof.Machine.execArrayOwnershipEnd s
  | .bindCoreGroup => Sys2Proof.Machine.execBindCoreGroup s
  | .overlaySwap => Sys2Proof.Machine.execOverlaySwap s
  | .contextSave => Sys2Proof.Machine.execContextSave s
  | .dealerRequest => Sys2Proof.Machine.execDealerRequest s
  | .sequenceUnitOperation => Sys2Proof.Machine.execSequenceUnitOperation s
  | .copyCommandStart => Sys2Proof.Machine.execCopyCommandStart s
  | .flagwFlagWrite => Sys2Proof.Machine.execFlagwFlagWrite s
  | .waitfReload => Sys2Proof.Machine.execWaitfReload s
  | .waitfDeadline => Sys2Proof.Machine.execWaitfDeadline s
  | .cycleChargeReport => Sys2Proof.Machine.execCycleChargeReport s
  | .segmentFetchComplete => Sys2Proof.Machine.execSegmentFetchComplete s
  | .heartbeat => Sys2Proof.Machine.execHeartbeat s

end Sys2Proof.Machine
end

