-- ==== Sys2Proof/Machine/Issue.lean ====
section
/-! DEFINITION. Who moves next: slots of a latched bundle, events that are due, issue, context switches, operations in flight, and cycles that
pass (R57 to R60, R80, R314, R359, R393; log entry 4). -/

namespace Sys2Proof.Machine

/-! ### A bundle tried in advance (R60) -/

/-- The slots of a bundle in order, on a trial state: none when one of them blocks behind the others. -/
def State.trySlots (s : State) : List Slot → Bool
  | [] => true
  | x :: t =>
    let s := (s.modCtx fun c => { c with latch := x :: t }).atSlot x
    match instrOf x.word with
    | none => s.trySlots t
    | some i =>
      if blocked i s then false
      else match exec i s with
        | .next s => s.trySlots t
        | _ => true
/-- The next bundle of the context in focus blocks in no slot. -/
def State.bundleFree (s : State) : Bool :=
  match s.nextBundle with
  | some t => t.slotsFree && t.trySlots t.ctx.latch
  | none => false
/-- A context is ready: it may issue and its next bundle would not block (R60). A bundle that cannot be decoded does not block. -/
def State.ready (s : State) : Bool :=
  s.mayIssue && !s.drainHolds && ((match s.prep with | .fault _ => true | _ => false) || s.bundleFree)
def State.on (s : State) (c : Nat) : State := { s with sub := c }

/-! ### Events due at the core in focus -/

/-- Events of the cell array that are due. -/
def State.arrayDue (s : State) : Option Instr :=
  let k := s.core
  let r := k.arr
  let out (edge : Bool) : Bool := r.exits.any fun e => decide (e.due ≤ k.cycle) && e.edge == edge
  if r.cross.any fun x => decide (x.entry + 63 ≤ k.cycle) then some .beatSettle
  else if r.mayEnter k.cycle then some .arrayItemEntry
  else if out false then some .drainLanding
  else if out true then some .edgeRowLanding
  else if r.ownershipEnds then some .arrayOwnershipEnd
  else none

/-- The FLAGW that may write its flag, if its flag store can leave. -/
def State.flagwDue (s : State) : Bool :=
  match s.ctx.q.flagws.find? s.ctx.flagwReady with
  | none => false
  | some f => match execFlagwFlagWrite s with | .next t => !(t.ctx.q.flagws.any fun x => x.id == f.id && !x.sent) | _ => false
/-- The CPYC that may go on. -/
def State.fillDue (s : State) : Option Nat := (s.ctx.q.cmds.find? fun k => (s.fillGo k.num).isSome).map (·.num)
/-- The COLL that may start or go on. -/
def State.collDue (s : State) : Option Nat := (s.ctx.q.colls.find? fun k => (s.collNext k).isSome).map (·.num)
/-- A cycle count that the core is to report (R390). -/
def Core.reportDue (k : Core) : Bool := decide (1024 ≤ k.charges) || (decide (0 < k.charges) && !(k.ctxs.any fun c => c.2.bind.isSome))

/-- A generator register of a bound context whose own block is missing, with a key in its slot (R197). -/
def State.cipherDue (s : State) : Option Nat :=
  if s.ctx.bind.isNone then none
  else (List.range 4).find? fun g => (s.die.key (s.gen g).slot).isSome && (s.gen g).block.isNone
/-- Events of the context in focus that are due, each before those after it. -/
def State.ctxDue (s : State) : Option Instr :=
  let c := s.ctx
  let now := s.cyc
  if (c.confirmDue now).isSome || s.releaseReady || s.eretReady || s.taskendReady then some .checkpointConfirm
  else if c.pipe.infl.any (Landing.isDue now) then some .resultLanding
  else if s.faultNow.isSome || s.trapReady.isSome || c.mchk.isSome then some .faultReport
  else if c.swapReady then some .overlaySwap
  else if (match c.pipe.waitf with | some w => w.deadlineDue now | none => false) then some .waitfDeadline
  else if s.waitfDue then some .waitfReload
  else if s.copyGo.isSome then some .copyCommandStart
  else match c.q.cmds.find? c.cbsetReady with
  | some k => some (.cbsetTakesEffect k.num)
  | none => match s.fillDue with
    | some n => some (.cpycSlotFill n)
    | none =>
      if s.flagwDue then some .flagwFlagWrite
      else if s.storeReady.isSome then some .storeQueueSend
      else match s.collDue with
      | some n => some (.collEngineStart n)
      | none => s.cipherDue.map .cipherBlockReady

/-! ### Events due at the regions and dies -/

/-- The flag of a region's end can be written now. -/
def State.flagGoes (s : State) (r : Region) (st : Nat) (v : Word) : Bool := ((s.setState r.blk st).flagWrite r v).isSome
/-- An event of a region that is due. -/
def State.regionDue (s : State) (r : Region) : Option (Loc × Instr) :=
  let l := r.homeLoc
  if s.completeReady r && s.flagGoes r 4 r.cval then some (l, .regionComplete r.blk)
  else if s.notifyReady r && s.flagGoes r 5 r.flipped then some (l, .regionFaultNotify r.blk)
  else if s.saveReady r then some (l, .contextSave)
  else if (s.restorePlan r).isSome then some (l, .contextRestore r.blk)
  else if !(s.arrivals r).isEmpty then some (l, .gangBarrierComplete r.blk)
  else none
/-- An event of a die's scheduler or dealer that is due. -/
def State.dieDue (s : State) (n : Nat) : Option (Loc × Instr) :=
  let l : Loc := ⟨n / 16, n % 16, 0⟩
  if (s.bindStep l.pkg l.die).isSome then some (l, .bindCoreGroup)
  else if (s.dieAt l.pkg l.die).dealq.any s.dealReady then some (l, .dealerRequest)
  else none
/-- The first event of regions and dies that is due. -/
def State.wideDue (s : State) : Option (Loc × Instr) :=
  if s.regions.isEmpty && s.owed.isEmpty then none
  else match s.regions.findSome? s.regionDue, s.owed.find? fun r => (s.flagWrite r r.flipped).isSome with
    | some e, _ => some e
    | none, some r => some (r.homeLoc, .regionFaultNotify r.blk)
    | none, none => (s.dies.map (·.1)).findSome? s.dieDue

/-! ### Contexts that stop (R52, R359, R393) -/

/-- The context waits under R60 or R84. -/
def State.isHeld (s : State) : Bool :=
  !s.ctx.pipe.wait.isEmpty || s.drainHolds || (match s.nextBundle with | some _ => !s.bundleFree | none => false)
/-- A gang member waits in GBAR, or on TLWAIT or TLLAG of tlk (R396). -/
def State.inReduction (s : State) : Bool :=
  s.ctx.pipe.wait.any (·.eff.kind == 2) ||
  (match s.nextBundle with
  | some t => t.ctx.latch.any fun x =>
      let u := t.atSlot x
      match instrOf x.word with
      | some (.tlwait h c o y i n) => c == 3 && blocked (.tlwait h c o y i n) u
      | some (.tllag h c o y i n) => c == 3 && blocked (.tllag h c o y i n) u
      | _ => false
  | none => false)
/-- The context in focus is to stop now: at a pre-emption point that has confirmed, or blocked; one that has found a fault of a FAULTED region reports
it no more (R359). -/
def State.parkDue (s : State) : Bool :=
  let c := s.ctx
  let bound := match c.bind with | some b => !b.ended && b.swap == 0 | none => false
  let owns := s.core.arr.owner == some s.sub
  let atPoint := c.pipe.cks.isEmpty && c.pipe.restart.snap && decide (c.pipe.restart.ser + 1 = c.pipe.ser) && c.pipe.wait.isEmpty &&
    c.pipe.held.isEmpty
  let fine := c.pipe.fault.isNone
  bound && c.latch.isEmpty &&
  match c.stopping with
  | 1 => fine && (atPoint || (!owns && c.pipe.wait.isEmpty && s.isHeld))
  | 4 => fine && atPoint
  | 2 => (fine && atPoint) || (s.stopsAtOnce && (!fine || s.isHeld)) ||
      (fine && !owns && (match s.myRegion with | some r => r.rerun | none => false) && s.inReduction)
  | _ => false

/-! ### The next move -/

/-- What a step does: it stops, it makes a turn that is no instruction, it runs an event, or it runs a slot. -/
inductive Plan where
  | stop (f : Fault)
  | turn (s : State)
  | run (i : Instr) (s : State)
  | slot (i : Instr) (s : State)

/-- The slot in issue is done; after the last one the bundle ends. -/
def State.afterSlot (s : State) : State :=
  let s := s.modCtx fun c => { c with latch := c.latch.drop 1 }
  if s.ctx.latch.isEmpty then s.finishBundle else s

/-- A watch on issue matches the slot: it takes no effect, and reports the match unless a fault of its own comes first in the order of codes (R333,
R355). -/
def State.watchSlot (s : State) (i : Instr) (va w : Nat) : State :=
  match exec i s with
  | .next t => match t.ctx.pipe.fault with
    | some f => if f.code < 0x0803 then s.raise f.code f.faddr f.watch f.defd else s.raise 0x0803 va (some w)
    | none => s.raise 0x0803 va (some w)
  | _ => s.raise 0x0803 va (some w)
/-- The bytes of the core SRAMs that a slot reads as data, with their structure: scratchpad 2, accumulator memory 3 (R370). -/
def Instr.sramReads (s : State) : Instr → List (Nat × Nat × Nat)
  | .lds h n _ a f => if s.qIssues h.q then ((localEA (s.rs a.toNat) (f.toNat * 2 ^ n.toNat) (2 ^ n.toNat) (2 ^ 22)).map fun ea => (2, ea, 2 ^ n.toNat)).toList else []
  | .vld h _ a z f =>
    let n := vwidth h / 8
    if s.qIssues h.q then ((localEA (s.rs a.toNat) (f.toNat * n) n (2 ^ 22)).map fun ea => (2, swz ea z.toNat, n)).toList else []
  | .vlda h _ a f =>
    let n := vwidth h / 8
    if s.qIssues h.q then ((localEA (s.rs a.toNat) (f.toNat * n) n (2 ^ 20)).map fun ea => (3, ea, n)).toList else []
  | .vldc h _ u l q => if s.qIssues h.q then [(2, (s.cb u.toNat).readLine l.toNat + 128 * q.toNat, vwidth h / 8)] else []
  | .srld h _ a => if s.qIssues h.q then ((localEA (s.rs a.toNat) 0 32 (2 ^ 22)).map fun ea => (2, ea, 32)).toList else []
  | .mcell h a => if s.qIssues h.q then ((localEA (s.rs a.toNat) 0 64 (2 ^ 22)).map fun ea => (2, ea, 64)).toList else []
  | _ => []
/-- The lines that a feed passes on to the array. -/
def Instr.fed (s : State) : Instr → List (Nat × Nat)
  | .mpush h a b m l k e => go h false a b m l k e
  | .mpushz h a b m l k e => go h true a b m l k e
  | _ => []
where
  go (h : Hd) (z : Bool) (a b : BitVec 4) (m l k : BitVec 3) (e : BitVec 2) : List (Nat × Nat) :=
    if !s.qIssues h.q || s.gated m k then []
    else match s.feed z a b l e with
      | .pair L _ => [(a, fmtMA s.fmt), (b, fmtMB s.fmt)].flatMap fun x =>
          let c := s.cb x.1.toNat
          (c.readLine L, 512) :: (if isDX x.2 then [(c.scaleAt L, 64)] else [])
      | _ => []
/-- What a slot reads meets the errors of its words; a machine check is taken behind the bundle and not rolled back (R370, R381). -/
def State.meetWords (s : State) (i : Instr) : State :=
  if s.core.errs.isEmpty then s
  else
    let t := (Instr.sramReads s i).foldl (fun s x => s.readWords s.sub x.1 x.2.1 x.2.2 false) s
    (Instr.fed s i).foldl (fun s x => s.readWords s.sub 2 x.1 x.2 true) t
/-- The slot at the head of the latched bundle of context `c`. -/
def State.slotPlan (s : State) (x : Slot) : Plan :=
  let s := s.atSlot x
  match instrOf x.word with
  | none => .turn (s.raise ((s.seg.slotFault false x.word).getD 0x0101)).afterSlot
  | some i =>
    let go : Plan := match (if x.pos = 0 then s.ctx.watchX (codeVa s.ctx.ctl.seg x.head) else none) with
      | some w => .turn (s.watchSlot i (codeVa s.ctx.ctl.seg x.head) w).afterSlot
      | none => .slot i (s.meetWords i)
    match i, s.ctx.pipe.waitf with
    | .waitf .., none => if blocked i s then .run i s else go
    | .waitf .., some _ => if blocked i s then .turn (s.modCtx fun c => { c with latch := [] }) else go
    | _, _ => go

/-- A bundle of the context in focus issues. -/
def State.issuePlan (s : State) : Plan :=
  match s.prep with
  | .fault t => .turn t
  | .kernel t => .run .moduloKernelCycle t
  | .bundle t => if t.ctx.latch.isEmpty then .turn t.finishBundle else .turn (t.modCore fun k => { k with cur := some t.sub })
  | .turn t => .turn t
  | .wait => .turn s

/-- An operation in flight is taken. -/
def State.takeTodo (s : State) (n : Nat) : Plan :=
  match s.todo.drop n with
  | t :: _ => .run t.i { s with todo := s.todo.eraseIdx n, focus := t.l, sub := t.c }
  | [] => .turn s
/-- Nothing else is due at the core in focus: a cycle passes, or an operation in flight arrives. -/
def State.idlePlan (s : State) : Plan :=
  if s.draw % 2 = 0 ∧ s.todo ≠ [] then s.takeTodo 0
  else if (s.liveCores.contains (locKey s.focus)) || s.liveCores.isEmpty then
    let t : State := s.modCore Core.pass
    .turn { t with focus := t.nextCore }
  else .turn { s with focus := s.nextCore }

/-- A WAITF of the context in focus becomes active (R314): only its own record and its request remain of the trial. -/
def State.waitfTurn (s : State) : Option State :=
  if s.mayIssue && !s.drainHolds && s.ctx.pipe.waitf.isNone then
    match s.nextBundle with
    | none => none
    | some t => match t.waitfNew with
      | none => none
      | some (x, k, a) =>
        let u := (t.atSlot x).waitfStart k a
        let was := s.ctx
        some (u.modCtx fun c => { was with pipe := { was.pipe with waitf := c.pipe.waitf } })
  else none
/-- A segment fetch that the context's next bundle needs. -/
def State.fetchTurn (s : State) : Option State :=
  if s.mayIssue then match s.prep with | .turn t => some t | _ => none else none

/-- Contexts of the core in focus that are bound or have work in their queues. -/
def State.liveSubs (s : State) : List Nat := (List.range 4).filter fun c => (s.core.ctx c).live
/-- The moves of the core in focus that go before issue: landings, confirmations, faults, engines, then stops, fetches and WAITFs. -/
def State.duePlan (s : State) : Option Plan :=
  match s.arrayDue with
  | some i => some (.run i s)
  | none => match s.liveSubs.findSome? fun c => (s.on c).ctxDue.map fun i => Plan.run i (s.on c) with
    | some p => some p
    | none =>
      if s.core.reportDue then some (.run .cycleChargeReport s)
      else match s.wideDue with
      | some (l, i) => some (.run i { s with focus := l, sub := 0 })
      | none => match s.liveSubs.find? fun c => (s.on c).parkDue with
        | some c => some (.turn (s.on c).park)
        | none => match s.liveSubs.findSome? fun c => (s.on c).fetchTurn with
          | some t => some (.turn t)
          | none => (s.liveSubs.findSome? fun c => (s.on c).waitfTurn).map .turn
/-- Issue on the core in focus, or a switch, or neither (R60). -/
def State.corePlan (s : State) : Plan :=
  let k := s.core
  if k.switch ≠ 0 || s.withheld then s.idlePlan
  else if (match k.cur with | some c => (s.on c).ready | none => false) then (s.on (k.cur.getD 0)).issuePlan
  else match k.turnOrder.find? fun c => (s.on c).ready with
    | some c => .run .contextSwitch (s.on c)
    | none => s.idlePlan

/-- A place of the domain (R11, R15). -/
def placeOk (l : Loc) : Bool := decide (l.pkg < 16) && decide (l.die < 10) && decide (l.core < 20)
/-- The head of the agenda moves (log entry 4): an event at a place, a core that goes next, or an operation in flight. -/
def State.agendaPlan (s : State) (a : Turn) : Plan :=
  match a with
  | .at_ l c i =>
    if !placeOk l || decide (4 ≤ c) then .stop .noSuchPlace
    else if (encode i).isSome then .turn s
    else .run i { s with focus := l, sub := c }
  | .focus l => if placeOk l then .turn { s with focus := l } else .stop .noSuchPlace
  | .pick n => s.takeTodo n

/-- The bundle under way on the core in focus: its context and its next slot. -/
def State.underWay (s : State) : Option (Nat × Slot) :=
  match s.core.cur with
  | some c => match (s.core.ctx c).latch with | x :: _ => some (c, x) | [] => none
  | none => none

/-- The next move: the agenda, the slots of a bundle under way, what is due, an operation in flight now and then, and issue. -/
def State.plan (s : State) : Plan :=
  match s.agenda with
  | a :: t => ({ s with agenda := t } : State).agendaPlan a
  | [] =>
    match s.underWay with
    | some (c, x) => (s.on c).slotPlan x
    | none => match s.duePlan with
      | some p => p
      | none => if s.draw % 4 = 3 ∧ s.todo ≠ [] then s.takeTodo 0 else s.corePlan

end Sys2Proof.Machine
end

