-- ==== Sys2Proof/Machine/Step.lean ====
section
/-! DEFINITION. One step of the domain, and the placing of an instruction where the next step runs it. -/

namespace Sys2Proof.Machine

/-- One move: what the plan names, with a fresh number for free values. -/
def step (s : State) : Host.Outcome State Fault Refusal :=
  match ({ s with draw := s.draw + 1 } : State).plan with
  | .stop f => .fault f
  | .turn t => .next t
  | .run i t => exec i t
  | .slot i t =>
    match exec i t with
    | .next u => .next u.afterSlot
    | o => o

/-- A segment that declares every feature, with no code of its own. -/
def slotSeg (w : Nat) : Seg := ⟨0, 3, 0x1FF, 0, 0, 0, 0, 0, [w]⟩
/-- A binding to no region: a context that runs a placed instruction (log entry 5). -/
def slotBind : Bind := ⟨0, 0, 0, 0, 0, false, 0, 0, none, false, false, 0⟩

/-- The state in which the next step runs a slot word on context 0 of the core in focus: the core is on, the context bound, and the word
the one slot of the bundle under way (log entry 5). -/
def State.withFetchWord (s : State) (_nbits w : Nat) : State :=
  let s : State := { s with agenda := [], sub := 0 }
  s.modCore fun k => { (k.modCtx 0 fun c => { c with
    bind := some (c.bind.getD slotBind)
    half := some (c.half.getD (slotSeg w))
    latch := [⟨w % 2 ^ 32, c.ctl.off, c.ctl.off, 0, none⟩] }) with on := true, cur := some 0 }

end Sys2Proof.Machine
end

