-- ==== Sys2Proof/Safety.lean ====
section
/-! DEFINITION. What counts as a safe run, and the words that the statements use for what a slot or an event does and leaves alone. -/

namespace Sys2Proof.Machine

/-- A step goes on: it neither faults nor is refused. -/
def State.goesOn (s : State) : Prop := ∃ t, step s = .next t

/-- Every byte memory of the domain has its canonical form: scratchpads and accumulator memories, the stores and boot windows of the
dies, and host memory. -/
def State.memoriesWf (s : State) : Prop :=
  (∀ e ∈ s.cores, Memory.wf e.2.spad = true ∧ Memory.wf e.2.accm = true) ∧
  (∀ e ∈ s.dies, Memory.wf e.2.store.mem = true ∧ Memory.wf e.2.bootwin = true) ∧ Memory.wf s.host.mem = true

/-! ### When a slot runs -/

/-- The slot of an instruction issues: its qualifier lets it, and nothing that it waits for is missing (R60, R70). -/
def Runs (i : Instr) (s : State) : Prop := s.qIssues i.hd.q = true ∧ held i s = false

/-- The undo log has room for the writes of these registers (R81). -/
def Room (s : State) (rs : List RegId) : Prop := s.undoFull rs = false

/-! ### What a slot does -/

/-- The undo log once register `r` is written by the bundle in issue (R81). -/
def State.undoWith (s : State) (r : RegId) : List Undo :=
  if s.ctx.pipe.logs r then ⟨s.ctx.pipe.ser, r, s.ctx.regs.get r⟩ :: s.ctx.pipe.undo else s.ctx.pipe.undo

/-- The result of the slot in issue, `lat` cycles ahead. -/
def State.resultOf (s : State) (lat : Nat) (r : RegId) (v : RegVal) (fl : Nat) (flags : Flags) : Landing :=
  ⟨s.cyc + lat, s.cyc, s.ctx.pipe.ser, s.ctx.cur.pos, r, v, fl, flags⟩

/-- From `s` to `t` the slot in issue only puts a result in flight, with its undo entry: nothing else changes (R61, R81, R227). -/
def Sends (s t : State) (lat : Nat) (r : RegId) (v : RegVal) (fl : Nat) (flags : Flags) : Prop :=
  t = s.modPipe fun p => { p with infl := addLanding (s.resultOf lat r v fl flags) p.infl, undo := s.undoWith r }

/-- From `s` to `t` the slot in issue only writes a register, with its undo entry: nothing else changes (R81). -/
def Writes (s t : State) (r : RegId) (v : RegVal) : Prop :=
  t = s.modCtx fun c => { c with regs := c.regs.put r v, pipe := { c.pipe with undo := s.undoWith r } }

/-- The entry that the slot in issue makes in the withhold buffer (R82). -/
def State.heldEntry (s : State) (e : Eff) (ord : Nat) : Held := ⟨s.ctx.pipe.ser, s.ctx.cur.pos, e, false, ord⟩

/-- From `s` to `t` the slot in issue withholds one effect, as the last of the buffer. -/
def Withholds (s t : State) (e : Eff) : Prop := t.ctx.pipe.held = s.ctx.pipe.held ++ [s.heldEntry e s.ctx.q.nextId]

/-- From `s` to `t` the bundle in issue becomes a checkpoint bundle whose next bundle waits for the response to an effect, beside those of
other slots of the bundle (R84). -/
def Awaits (s t : State) (e : Eff) : Prop :=
  Withholds s t e ∧ t.ctx.pipe.wait = s.ctx.pipe.wait ++ [⟨s.ctx.pipe.ser, s.ctx.slotVa, s.ctx.cur.pos, e⟩] ∧
    (t.ctx.pipe.cks.any fun k => k.ser == s.ctx.pipe.ser) = true

/-- The slot in issue has taken banks of the scratchpad (R136). -/
def State.taking (s : State) (banks : List Nat) : State := s.modCtx fun c => { c with claims := c.claims ++ banks }

/-- From `s` to `t` the slot in issue only finds a fault, to be reported once every older bundle is past its horizon (R355, R364). -/
def Faults (s t : State) (code faddr : Nat) : Prop :=
  t = s.modPipe fun p => { p with fault := some ⟨code, p.ser, max s.cyc p.horizon, s.ctx.cur.pos, s.ctx.slotVa, faddr, none, none⟩ }

/-! ### What a slot or an event leaves alone -/

/-- Every register of every context is unchanged. -/
def SameRegs (s t : State) : Prop := ∀ l c, (t.ctxAt l c).regs = (s.ctxAt l c).regs
/-- Flags, fault registers, watches and every other system register of every context are unchanged. -/
def SameSys (s t : State) : Prop := ∀ l c, (t.ctxAt l c).sys = (s.ctxAt l c).sys
/-- Every byte of every scratchpad is unchanged. -/
def SameSpad (s t : State) : Prop := ∀ l a, Memory.get (t.coreAt l).spad a = Memory.get (s.coreAt l).spad a
/-- Every byte of every accumulator memory is unchanged. -/
def SameAccm (s t : State) : Prop := ∀ l a, Memory.get (t.coreAt l).accm a = Memory.get (s.coreAt l).accm a
/-- Outside `n` bytes from `a` of the focus core's scratchpad, every byte of every scratchpad is unchanged. -/
def SpadOutside (s t : State) (a n : Nat) : Prop :=
  ∀ l b, (locKey l = locKey s.focus → b < a ∨ a + n ≤ b) → Memory.get (t.coreAt l).spad b = Memory.get (s.coreAt l).spad b
/-- The same of accumulator memories. -/
def AccmOutside (s t : State) (a n : Nat) : Prop :=
  ∀ l b, (locKey l = locKey s.focus → b < a ∨ a + n ≤ b) → Memory.get (t.coreAt l).accm b = Memory.get (s.coreAt l).accm b
/-- HBM and second tier of every die, with what is kept of their sectors, and every byte of host memory are unchanged. -/
def SameGlobal (s t : State) : Prop :=
  (∀ p d, (t.dieAt p d).store = (s.dieAt p d).store) ∧ ∀ a, Memory.get t.host.mem a = Memory.get s.host.mem a
/-- The array, the tag table and the TLB of every core are unchanged. -/
def SameUnits (s t : State) : Prop :=
  ∀ l, (t.coreAt l).arr = (s.coreAt l).arr ∧ (t.coreAt l).tags = (s.coreAt l).tags ∧ (t.coreAt l).tlb = (s.coreAt l).tlb
/-- Dies, regions and flash are unchanged. -/
def SameDevices (s t : State) : Prop := t.dies = s.dies ∧ t.regions = s.regions ∧ t.flash = s.flash

end Sys2Proof.Machine
end

