-- ==== Sys2Proof/Certificates/Slice0/Obligations.lean ====
section
/-! DEFINITION. The statements for the provers. -/

open Sys2Proof Sys2Proof.Machine

/-! ### Encodings and the step -/

/-- Sample words written out from the encodings of R206 to R218 decode to the instructions they stand for. -/
def Obligations.SampleWordsDecode : Prop :=
  -- ADD s5, s6, s7 with stop bit: [31] 1, class 0, [25:20] 0x01, G 0, D 5, A 6, B 7
  decode 0x80105187 = .ok (.add ⟨true, 0⟩ 0 5 6 7) ∧
  -- LI s1, −1: [25:20] 0x1F, IMM12 0xFFF
  decode 0x01F01FFF = .ok (.li ⟨false, 0⟩ 0 1 0xFFF) ∧
  -- BR with N 1, PRED 2, SENSE 1, DISP −2: [25:20] 0x28
  decode 0x028AFFFE = .ok (.br ⟨false, 0⟩ 1 2 1 0x7FFE) ∧
  -- VADD v3, v1, v2 of cluster V1 at W 10: class 2, [23:18] 0x01
  decode 0x22043042 = .ok (.vadd ⟨false, 0, true, 2⟩ 3 1 2) ∧
  -- MCLR with stop bit and Q 01: class 3
  decode 0xB4000000 = .ok (.mclr ⟨true, 1⟩) ∧
  -- an opcode marked "—" of class C, and ADD's neighbour NOP with a bit in its field marked 0
  decode 0x01D00000 = .error .undefinedOpcode ∧ decode 0x00000001 = .error .reservedField

/-- Decoding what the encoder writes gives the instruction back, with every operand, for every slot instruction; a slot is 32 bits.
A 32-bit word that decodes is the encoding of what it decodes to: no bit of a slot is dropped, and no two words are one instruction. -/
def Obligations.DecodeAndEncodeAgree : Prop :=
  (∀ (i : Instr) (w : Nat), encode i = some w → w < 2 ^ 32 ∧ decode w = .ok i) ∧
  (∀ (w : Nat) (i : Instr), w < 2 ^ 32 → decode w = .ok i → encode i = some w)

/-- OPCODE MAPS. A word is undefined exactly where the maps of R209 to R218 mark its opcode "—", or, in class M, from 11 to 15: class C
29, 38, 39, 45 to 47 and 59 to 63, the classes of the two V clusters 24 and 54, class X from 18, class D from 20, class S from 18, class E from 10. -/
def Obligations.OpcodeMap : Prop :=
  ∀ w : Nat, w < 2 ^ 32 → (decode w = .error .undefinedOpcode ↔
    match w / 2 ^ 28 % 8 with
    | 0 => w / 2 ^ 20 % 64 ∈ [29, 38, 39, 45, 46, 47, 59, 60, 61, 62, 63]
    | 1 => w / 2 ^ 18 % 64 ∈ [24, 54]
    | 2 => w / 2 ^ 18 % 64 ∈ [24, 54]
    | 3 => 11 ≤ w / 2 ^ 22 % 16
    | 4 => 18 ≤ w / 2 ^ 20 % 64
    | 5 => 20 ≤ w / 2 ^ 20 % 64
    | 6 => 18 ≤ w / 2 ^ 20 % 64
    | _ => 10 ≤ w / 2 ^ 20 % 64)

/-- A step at a bundle under way whose next slot holds the word of a well-formed instruction is the meaning of that instruction at
the state in which that slot is the slot in issue, and in which what it reads has met the errors of the words that hold it (R370; without any, that
state is the same), followed by the end of the slot: the slot leaves the latch, and after the last one the bundle ends (log entry 4: `draw`
numbers the step). The exceptions are a WAITF that has not found its outcome, which holds its bundle (R314), and a first slot that a watch on issue matches, which reports the match
and takes no effect (R333). A step whose agenda names an event at a place is the meaning of that event there. -/
def Obligations.StepRunsDecoded : Prop :=
  (∀ (s : State) (c : Nat) (x : Slot) (i : Instr), s.agenda = [] → s.underWay = some (c, x) → decode x.word = .ok i → i.wf = true →
    let u : State := (({ s with draw := s.draw + 1 } : State).on c).atSlot x
    (∀ h k a, i ≠ .waitf h k a) ∨ blocked i u = false → (x.pos = 0 → u.ctx.watchX (codeVa u.ctx.ctl.seg x.head) = none) →
    (s.core.errs = [] → u.meetWords i = u) ∧
    step s = match exec i (u.meetWords i) with
      | .next t => .next t.afterSlot
      | o => o) ∧
  ∀ (s : State) (l : Loc) (c : Nat) (i : Instr) (rest : List Turn), s.agenda = .at_ l c i :: rest → placeOk l = true → c < 4 → encode i = none →
    step s = exec i { s with draw := s.draw + 1, agenda := rest, focus := l, sub := c }

/-- A context that settles on a bundle of its segment, outside any loop and delay bundle, latches that bundle: its words up to the stop bit, in
position order (R57), provided that they pass the checks of R207. Registers are as before. -/
def Obligations.BundleLatched : Prop :=
  ∀ (s : State) (g : Seg) (ws : List Nat), s.ctx.half = some g → g.va = s.ctx.ctl.seg → s.ctx.ctl.entry = false → s.ctx.ctl.bad = none →
    s.ctx.ctl.tail = 0 → s.ctx.ctl.kern = none → s.ctx.ctl.depth = 0 → s.ctx.ctl.xfer = none → s.ctx.ctl.off < g.code.length → s.ctx.sys.watch = [] →
    g.bundle s.ctx.ctl.off = some (ws, true) → bundleFault g false false false true ws = none →
    ∃ t, s.prep = .bundle t ∧ SameRegs s t ∧ t.ctx.latch.map (fun x => (x.word, x.off, x.pos)) = ws.zipIdx.map fun w => (w.1, s.ctx.ctl.off, w.2)

/-- A step never stops on its own account: it is never refused, with an empty agenda it goes on, and an agenda stops it only by naming a
place that R11 to R15 do not number (log entry 4: the agenda is the model's own). -/
def Obligations.StepGoesOn : Prop :=
  (∀ s : State, s.agenda = [] → s.goesOn) ∧ (∀ (s : State) (r : Refusal), step s ≠ .refused r) ∧
    ∀ (s : State) (f : Fault), step s = .fault f →
      (∃ l rest, placeOk l = false ∧ s.agenda = .focus l :: rest) ∨
      (∃ l c i rest, (placeOk l = false ∨ 4 ≤ c) ∧ s.agenda = .at_ l c i :: rest)

/-! ### Scalar slots (R227 to R236) -/

namespace Sys2Proof.Claims

/-- What a C slot sends: guard, latency, destination, value, flags of SFLG. -/
structure Scalar where
  guard : BitVec 2
  lat : Nat
  reg : RegId
  val : Nat
  flags : Flags

/-- The integer, predicate and immediate instructions by the tables of R229 to R233 and R246. -/
def integerRow (i : Instr) (s : State) : Option Scalar :=
  let u (r : BitVec 6) : Nat := (s.rs r.toNat).toNat
  let z (r : BitVec 6) : Int := (s.rs r.toNat).toInt
  let W : Nat := 2 ^ 64
  match i with
  | .add _ g d a b => some ⟨g, 1, .s d.toNat, (u a + u b) % W, 0⟩
  | .sub _ g d a b => some ⟨g, 1, .s d.toNat, (u a + (W - u b)) % W, 0⟩
  | .mul _ g d a b => some ⟨g, 3, .s d.toNat, (z a * z b % W).toNat, 0⟩
  | .mulh _ g d a b => some ⟨g, 3, .s d.toNat, (z a * z b / W % W).toNat, 0⟩
  | .mulhu _ g d a b => some ⟨g, 3, .s d.toNat, u a * u b / W, 0⟩
  | .divs _ g d a b => some ⟨g, 12, .s d.toNat,
      if z b = 0 then W - 1 else if z a = -2 ^ 63 ∧ z b = -1 then 2 ^ 63 else ((z a).tdiv (z b) % W).toNat, if u b = 0 then fDZ else 0⟩
  | .divu _ g d a b => some ⟨g, 12, .s d.toNat, if u b = 0 then W - 1 else u a / u b, if u b = 0 then fDZ else 0⟩
  | .rems _ g d a b => some ⟨g, 12, .s d.toNat,
      if z b = 0 then u a else ((z a - z b * (z a).tdiv (z b)) % W).toNat, if u b = 0 then fDZ else 0⟩
  | .remu _ g d a b => some ⟨g, 12, .s d.toNat, if u b = 0 then u a else u a % u b, if u b = 0 then fDZ else 0⟩
  | .and _ g d a b => some ⟨g, 1, .s d.toNat, u a &&& u b, 0⟩
  | .or _ g d a b => some ⟨g, 1, .s d.toNat, u a ||| u b, 0⟩
  | .xor _ g d a b => some ⟨g, 1, .s d.toNat, u a ^^^ u b, 0⟩
  | .andn _ g d a b => some ⟨g, 1, .s d.toNat, u a &&& (W - 1 - u b), 0⟩
  | .shl _ g d a b => some ⟨g, 1, .s d.toNat, u a * 2 ^ (u b % 64) % W, 0⟩
  | .shr _ g d a b => some ⟨g, 1, .s d.toNat, u a / 2 ^ (u b % 64), 0⟩
  | .sar _ g d a b => some ⟨g, 1, .s d.toNat, (z a / 2 ^ (u b % 64) % W).toNat, 0⟩
  | .rot _ g d a b => some ⟨g, 1, .s d.toNat,
      if u b % 64 = 0 then u a else (u a * 2 ^ (u b % 64) % W) ||| (u a / 2 ^ (64 - u b % 64)), 0⟩
  | .min _ g d a b => some ⟨g, 1, .s d.toNat, (min (z a) (z b) % W).toNat, 0⟩
  | .max _ g d a b => some ⟨g, 1, .s d.toNat, (max (z a) (z b) % W).toNat, 0⟩
  | .minu _ g d a b => some ⟨g, 1, .s d.toNat, min (u a) (u b), 0⟩
  | .maxu _ g d a b => some ⟨g, 1, .s d.toNat, max (u a) (u b), 0⟩
  | .clz _ g d a => some ⟨g, 1, .s d.toNat, if u a = 0 then 64 else 63 - (u a).log2, 0⟩
  | .popc _ g d a => some ⟨g, 1, .s d.toNat, ((List.range 64).filter fun k => (u a).testBit k).length, 0⟩
  | .sext _ g d a n => some ⟨g, 1, .s d.toNat,
      if (u a).testBit n.toNat then u a % 2 ^ (n.toNat + 1) + (W - 2 ^ (n.toNat + 1)) else u a % 2 ^ (n.toNat + 1), 0⟩
  | .zext _ g d a n => some ⟨g, 1, .s d.toNat, u a % 2 ^ (n.toNat + 1), 0⟩
  | .cmp _ g k c a b => some ⟨g, 1, .p k.toNat, (match c.toNat with
      | 0 => decide (z a = z b) | 1 => decide (z a ≠ z b) | 2 => decide (z a < z b) | 3 => decide (z b ≤ z a)
      | 4 => decide (u a < u b) | 5 => decide (u b ≤ u a) | 6 => decide (z a ≤ z b) | _ => decide (z b < z a)).toNat, 0⟩
  | .plog _ g k o x y => some ⟨g, 1, .p k.toNat,
      let p := s.rp x.toNat
      let q := s.rp y.toNat
      (match o.toNat with
        | 0 => p && q | 1 => p || q | 2 => p != q | 3 => p && !q | 4 => p || !q | 5 => !(p && q) | 6 => !(p || q) | _ => p == q).toNat, 0⟩
  | .addi _ g d n => some ⟨g, 1, .s d.toNat, ((z d + n.toInt) % W).toNat, 0⟩
  | .li _ g d n => some ⟨g, 1, .s d.toNat, (n.toInt % W).toNat, 0⟩
  | .lih _ g d n => some ⟨g, 1, .s d.toNat, (u d * 4096 + n.toNat) % W, 0⟩
  | .lpidx _ g d l => some ⟨g, 1, .s d.toNat, s.ridx l.toNat % W, 0⟩
  | _ => none

/-- The floating instructions (R234 to R236): no guard, five cycles; the exact result is rounded once, and an FP32 result has zeros
above it. -/
def floatRow (i : Instr) (s : State) : Option Scalar :=
  let u (r : BitVec 6) : Nat := (s.rs r.toNat).toNat
  let src (p : BitVec 1) (r : BitVec 6) : Nat := if p = 0 then u r % 2 ^ 32 else u r
  let num (p : BitVec 1) (r : BitVec 6) : Ext := toExt (fpFmt p) (fmtDAZ s.fmt) (src p r)
  match i with
  | .fadd _ p d a b => some ⟨0, 5, .s d.toNat, (elAdd s.fmt (fpFmt p) (src p a) (src p b)).1 % 2 ^ 64, (elAdd s.fmt (fpFmt p) (src p a) (src p b)).2⟩
  | .fmul _ p d a b => some ⟨0, 5, .s d.toNat, (elMul s.fmt (fpFmt p) (src p a) (src p b)).1 % 2 ^ 64, (elMul s.fmt (fpFmt p) (src p a) (src p b)).2⟩
  | .ffma _ p d a b => some ⟨0, 5, .s d.toNat, (elFma s.fmt (fpFmt p) (src p a) (src p b) (src p d)).1 % 2 ^ 64,
      (elFma s.fmt (fpFmt p) (src p a) (src p b) (src p d)).2⟩
  | .fcvt _ d a c => some ⟨0, 5, .s d.toNat, (fcvtVal c s.fmt (s.rs a.toNat)).1 % 2 ^ 64, (fcvtVal c s.fmt (s.rs a.toNat)).2⟩
  | .fcmp _ p k c a b => some ⟨0, 5, .p k.toNat, (extRel (fcmpRel c) (num p a) (num p b)).1.toNat, (extRel (fcmpRel c) (num p a) (num p b)).2⟩
  | _ => none

/-- Slots of other classes that only deliver a value: the queries of R301, R303, R308, R327, R328 and R330, the lookup of R296, and the
sort unit's results of R194, R195 and R323. -/
def queryRow (i : Instr) (s : State) : Option Scalar :=
  let q := s.ctx.q
  match i with
  | .qcnt _ u d => some ⟨0, 1, .s d.toNat,
      (if u = 0 then q.ldq.length + leading (·.done) q.ldq * 2 ^ 32 else q.gdq.length + leading (·.whole) q.gdq * 2 ^ 32) % 2 ^ 64, 0⟩
  | .fcnt _ p d => some ⟨0, 1, .s d.toNat, (16 - (s.fo p.toNat).held + (s.fi p.toNat).words.length * 2 ^ 16) % 2 ^ 64, 0⟩
  | .tlrd _ c o x d => some ⟨0, 1, .s d.toNat, s.tlValue c o x % 2 ^ 64, 0⟩
  | .fmtr _ d => some ⟨0, 1, .s d.toNat, s.fmt.toNat, 0⟩
  | .sysrd _ d n => some ⟨0, 1, .s d.toNat, (s.sysReg n.toNat).toNat, 0⟩
  | .isaq _ d sl => some ⟨0, 1, .s d.toNat, match sl.toNat with | 0 => 0x1FF | 4 => 0x0300 | _ => 0, 0⟩
  | .cyc _ d => some ⟨0, 1, .s d.toNat, s.cyc % 2 ^ 64, 0⟩
  | .tlook _ d a =>
      let k := s.rs a.toNat
      let way (w : Nat) : Bool := let t := s.core.tag (tagSet k.toNat) w; t.valid && decide (t.ctx = s.sub) && decide (t.key = k)
      some ⟨0, 2, .s d.toNat, match (List.range 8).find? way with
        | some w => w * 2 ^ 16 + (s.core.tag (tagSet k.toNat) w).slot.toNat
        | none => 2 ^ 64 - 1, 0⟩
  | .suni _ a d => some ⟨0, 1, .s d.toNat, uniform (s.rs a.toNat).toNat % 2 ^ 64, 0⟩
  | .spick _ n a d => some ⟨0, 8, .s d.toNat, (pick (s.hand n.toNat) ((s.rs a.toNat).toNat % 2 ^ 32)).toNat, 0⟩
  | .sacc _ k a =>
      let x (j : Nat) : Ext := toExt 0 false ((s.rs (a.toNat + j)).toNat % 2 ^ 32)
      some ⟨0, 3, .p k.toNat, (extRel .lt (toExt 0 false (rne32 (extMul (x 0) (x 2)).1)) (x 1)).1.toNat, 0⟩
  | .tmop _ d a b o => some ⟨0, 1, .tm d.toNat, logicW o 1024 (s.rtm a.toNat) (s.rtm b.toNat), 0⟩
  | _ => none

end Sys2Proof.Claims

open Sys2Proof.Claims

/-- INTEGER RESULTS. An integer, predicate or immediate slot (ADD, SUB, MUL, MULH, MULHU, DIVS, DIVU, REMS, REMU, AND, OR, XOR, ANDN, SHL,
SHR, SAR, ROT, MIN, MAX, MINU, MAXU, CLZ, POPC, SEXT, ZEXT, CMP, PLOG, ADDI, LI, LIH, LPIDX) that issues with its guard 1 sends the
value of R229 to R233 and R246, at its latency, to its destination; nothing else changes. -/
def Obligations.IntegerResults : Prop :=
  ∀ (i : Instr) (s : State) (r : Scalar), integerRow i s = some r → Runs i s → s.rp r.guard.toNat = true → Room s [r.reg] →
    ∃ t, exec i s = .next t ∧ Sends s t r.lat r.reg (.bits r.val) 0 r.flags

/-- SEL of R231: the predicate selects between the two sources, and the slot always writes; with p0 it copies s[A]. -/
def Obligations.SelResult : Prop :=
  ∀ (h : Hd) (p : BitVec 2) (d a b : BitVec 6) (s : State), Runs (.sel h p d a b) s → Room s [.s d.toNat] →
    (∃ t, exec (.sel h p d a b) s = .next t ∧
      Sends s t 1 (.s d.toNat) (.bits (if s.rp p.toNat then s.rs a.toNat else s.rs b.toNat).toNat) 0 0) ∧
    (p = 0 → ∃ t, exec (.sel h p d a b) s = .next t ∧ Sends s t 1 (.s d.toNat) (.bits (s.rs a.toNat).toNat) 0 0)

/-- FLOATING RESULTS. FADD, FMUL, FFMA, FCVT and FCMP that issue send the rounded value of R234 to R236 after five cycles, with its flags
to SFLG; nothing else changes. The sign of an exact
zero product is that of its factors under every rounding mode, which is the model's reading (log entry 9). -/
def Obligations.FloatResults : Prop :=
  ∀ (i : Instr) (s : State) (r : Scalar), floatRow i s = some r → Runs i s → Room s [r.reg] →
    ∃ t, exec i s = .next t ∧ Sends s t r.lat r.reg (.bits r.val) 0 r.flags

/-- QUERY RESULTS. QCNT, FCNT, TLRD, FMTR, SYSRD, ISAQ, CYC, TLOOK, SUNI, SPICK, SACC, and TMOP of a context that owns the array, send their
value at their latency; nothing else changes. -/
def Obligations.QueryResults : Prop :=
  ∀ (i : Instr) (s : State) (r : Scalar), queryRow i s = some r → Runs i s → Room s [r.reg] →
    ((∃ h d a b o, i = .tmop h d a b o) → s.arrMine = true) →
    ∃ t, exec i s = .next t ∧ Sends s t r.lat r.reg (.bits r.val) 0 r.flags

/-- A slot of the C-R and C-I forms, CMP, PLOG or LPIDX whose guard reads 0 does nothing at all (R227): no write, no flag, no entry in the
undo log. -/
def Obligations.GuardFalse : Prop :=
  ∀ (i : Instr) (s : State) (r : Scalar), integerRow i s = some r → s.rp r.guard.toNat = false → exec i s = .next s

/-- s0 reads zero and p0 reads 1 whatever was written to them; vk0, wk0 and tm0 read all ones (R208, R74, R250). -/
def Obligations.HardwiredRegisters : Prop :=
  ∀ s : State, s.rs 0 = 0 ∧ s.rp 0 = true ∧ (∀ cl, s.rk cl 0 = 2 ^ 256 - 1) ∧ s.rtm 0 = 2 ^ 1024 - 1

/-- NOT ISSUED. A slot whose qualifier does not let it issue does nothing; a control transfer that its qualifier does not issue is not
taken, and still has its two delay bundles (R70, R237). TASKEND and ERET count among the first here: they have no delay bundles.
BLOCKED. While what a slot waits for is missing, its bundle changes nothing (R60). A WAITF is the exception that R314 gives: it becomes
active and sends its load. -/
def Obligations.BlockedOrNotIssued : Prop :=
  (∀ (i : Instr) (s : State), (encode i).isSome = true → s.qIssues i.hd.q = false →
      (match i with
        | .br .. | .brk .. | .call .. | .ret .. | .seg .. | .lpbrk .. =>
          ∃ t, exec i s = .next t ∧ t.ctx.ctl.xfer = (some ⟨3, none, false, false, t.ctx.ctl.xfer.elim false (·.bendOk), false⟩ : Option Xfer) ∧
            SameRegs s t ∧ SameSys s t
        | _ => exec i s = .next s)) ∧
  (∀ (i : Instr) (s : State), held i s = true → (∀ h k a, i ≠ .waitf h k a) → exec i s = .next s)

/-- FRAME of the result slots. A scalar, floating or query slot that goes on leaves every register, flag, system register and byte of
memory, the array, the tag table, and every die and region as they were; its destination changes only when the result lands. -/
def Obligations.ResultSlotFrame : Prop :=
  ∀ (i : Instr) (s t : State), (∃ r, integerRow i s = some r ∨ floatRow i s = some r ∨ queryRow i s = some r) → exec i s = .next t →
    SameRegs s t ∧ SameSys s t ∧ SameSpad s t ∧ SameAccm s t ∧ SameGlobal s t ∧ SameUnits s t ∧ SameDevices s t

/-- LANDING. When the cycle of a result in flight has come and it is the only one due, the landing writes its register, unless that
register discards writes, and sets its flags; every other register and flag register keeps its value (R61, R105). The values are those
of a bit register: an s, p, vector, mask or tile-mask register. -/
def Obligations.ResultLanding : Prop :=
  ∀ (s : State) (l : Landing) (v : Nat), s.ctx.pipe.infl.filter (Landing.isDue s.cyc) = [l] → l.val = .bits v →
    (∃ n, l.reg = .s n ∨ l.reg = .p n ∨ (∃ c, l.reg = .v c n) ∨ (∃ c, l.reg = .k c n) ∨ l.reg = .tm n) →
    ∃ t, exec .resultLanding s = .next t ∧
      (l.reg.discards = false → (t.ctx.regs.get l.reg).num = v % match l.reg with | .s _ => 2 ^ 64 | .p _ => 2 | .k .. => 2 ^ 256 | _ => 2 ^ 1024) ∧
      (∀ r, (l.reg.discards = true ∨ r ≠ l.reg) → t.ctx.regs.get r = s.ctx.regs.get r) ∧
      tget 0 t.ctx.sys.flg l.fl = tget 0 s.ctx.sys.flg l.fl ||| l.flags ∧
      (∀ n, n ≠ l.fl → tget 0 t.ctx.sys.flg n = tget 0 s.ctx.sys.flg n) ∧
      t.ctx.pipe.infl = s.ctx.pipe.infl.filter (fun x => !Landing.isDue s.cyc x) ∧ SameSpad s t ∧ SameAccm s t ∧ SameGlobal s t

/-- Between its issue and its landing a result's destination reads as an undefined value: its window (R61); which value is free (log entry 3). -/
def Obligations.UndefinedWindow : Prop :=
  ∀ (s : State) (l : Landing) (n w : Nat), l ∈ s.ctx.pipe.infl → l.reg = .s n → l.iss < s.cyc → s.cyc < l.due →
    s.read (.s n) w = s.free (RegId.tag (.s n)) w

/-! ### Vector slots (R250 to R275) -/

namespace Sys2Proof.Claims

/-- What a V slot delivers lane by lane: its modifiers, whether the format is one it accepts, its latency, its destination, the width and
the number of the elements it writes, and the result and the flags of element j. -/
structure Lanes where
  h : VHd
  ok : Bool
  lat : Nat
  d : BitVec 6
  w : Nat
  n : Nat
  el : Nat → Nat × Flags

/-- The V instructions that write elements of a vector register, by the tables of R253 to R258, R260 to R266, R268 to R270 and R275. -/
def laneRow (i : Instr) (s : State) : Option Lanes :=
  let f (h : VHd) : Nat := fmtVF s.fmt h.cl
  let W (h : VHd) : Nat := match h.w.toNat with | 0 => 256 | 1 => 512 | _ => 1024
  let e (h : VHd) : Nat := elemBits (f h)
  let A (h : VHd) (a : BitVec 6) (j : Nat) : Nat := lane (s.rv h.cl a.toNat) (e h) j
  let B (h : VHd) (b : BitVec 6) (j : Nat) : Nat := if h.w = 3 then (s.rs b.toNat).toNat % 2 ^ e h else lane (s.rv h.cl b.toNat) (e h) j
  let arith (h : VHd) : Bool := isFloat (f h) || isInt (f h)
  let bitsOk (h : VHd) : Bool := isInt (f h) || f h == 14
  let plain (x : Nat) : Nat × Flags := (x, 0)
  let row (h : VHd) (ok : Bool) (lat : Nat) (d : BitVec 6) (el : Nat → Nat × Flags) : Option Lanes := some ⟨h, ok, lat, d, e h, W h / e h, el⟩
  match i with
  | .vadd h d a b => row h (arith h) 3 d fun j => elAdd s.fmt (f h) (A h a j) (B h b j)
  | .vsub h d a b => row h (arith h) 3 d fun j => elSub s.fmt (f h) (A h a j) (B h b j)
  | .vmul h d a b => row h (arith h) 5 d fun j => elMul s.fmt (f h) (A h a j) (B h b j)
  | .vmin h d a b => row h (arith h) 3 d fun j => elMinMax s.fmt false (f h) (A h a j) (B h b j)
  | .vmax h d a b => row h (arith h) 3 d fun j => elMinMax s.fmt true (f h) (A h a j) (B h b j)
  | .vfma h d a b => row h (arith h) 5 d fun j => elFma s.fmt (f h) (A h a j) (B h b j) (A h d j)
  | .vfms h d a b => row h (arith h) 5 d fun j => elFms s.fmt (f h) (A h a j) (B h b j) (A h d j)
  | .vmulh h d a b => row h (isInt (f h)) 5 d fun j =>
      plain ((intOf (f h) (A h a j) * intOf (f h) (B h b j) / 2 ^ e h) % 2 ^ e h).toNat
  | .vabs h d a => row h (arith h) 3 d fun j =>
      if isFloat (f h) then plain (A h a j % 2 ^ (e h - 1)) else reduceInt (f h) (fmtSAT s.fmt) |intOf (f h) (A h a j)|
  | .vneg h d a => row h (arith h) 3 d fun j =>
      if isFloat (f h) then plain (A h a j ^^^ 2 ^ (e h - 1)) else reduceInt (f h) (fmtSAT s.fmt) (-intOf (f h) (A h a j))
  | .vand h d a b => row h true 3 d fun j => plain (A h a j &&& B h b j)
  | .vor h d a b => row h true 3 d fun j => plain (A h a j ||| B h b j)
  | .vxor h d a b => row h true 3 d fun j => plain (A h a j ^^^ B h b j)
  | .vandn h d a b => row h true 3 d fun j => plain (A h a j &&& (2 ^ e h - 1 - B h b j))
  | .vshl h d a b => row h (bitsOk h) 3 d fun j => plain (A h a j * 2 ^ B h b j % 2 ^ e h)
  | .vshr h d a b => row h (bitsOk h) 3 d fun j => plain (A h a j / 2 ^ B h b j)
  | .vsar h d a b => row h (bitsOk h) 3 d fun j => plain (sextN (A h a j) (e h) / 2 ^ B h b j % 2 ^ e h).toNat
  | .vpopc h d a => row h (bitsOk h) 3 d fun j => plain (((List.range (e h)).filter fun k => (A h a j).testBit k).length % 2 ^ e h)
  | .vsel h m d a b => row h true 3 d fun j => plain (if (s.rk h.cl m.toNat).testBit j then A h a j else B h b j)
  | .vexp2 h d a => row h (f h ≤ 4) 9 d fun j => elSpecial 0 s.fmt (f h) (A h a j)
  | .vlog2 h d a => row h (f h ≤ 4) 9 d fun j => elSpecial 1 s.fmt (f h) (A h a j)
  | .vrcp h d a => row h (f h ≤ 4) 9 d fun j => elSpecial 2 s.fmt (f h) (A h a j)
  | .vrsq h d a => row h (f h ≤ 4) 9 d fun j => elSpecial 3 s.fmt (f h) (A h a j)
  | .vsqrt h d a => row h (f h ≤ 4) 9 d fun j => elSpecial 4 s.fmt (f h) (A h a j)
  | .vcvt h d a t => some ⟨h, arith h && (isFloat t.toNat || isInt t.toNat), 4, d, elemBits t.toNat,
      W h / max (e h) (elemBits t.toNat), fun j => elCvt s.fmt (f h) t.toNat (A h a j)⟩
  | .vunpk h d a t p => row h (arith h) 4 d fun j =>
      let k := t.toNat * (W h / e h) + j
      elCvt s.fmt p.toNat (f h) (if k < 1024 / elemBits p.toNat then lane (s.rv h.cl a.toNat) (elemBits p.toNat) k else 0)
  | .vpack h d a t p => some ⟨h, arith h, 4, d, elemBits p.toNat, 1024 / elemBits p.toNat, fun k =>
      let lo := t.toNat * (W h / e h)
      if lo ≤ k ∧ k < lo + W h / e h then elCvt s.fmt (f h) p.toNat (A h a (k - lo)) else plain (lane (s.rv h.cl d.toNat) (elemBits p.toNat) k)⟩
  | .vpermb h d a b => some ⟨h, true, 3, d, 8, W h / 8, fun j =>
      let x := lane (s.rv h.cl b.toNat) 8 j
      plain (if 128 ≤ x then 0 else lane (s.rv h.cl a.toNat) 8 (x % (W h / 8)))⟩
  | .vshuf h d a b => row h (decide (8 ≤ e h)) 3 d fun j =>
      let x := lane (s.rv h.cl b.toNat) (e h) j
      plain (if x < W h / e h then A h a x else 0)
  | .vbcast h d a l => row h true 3 d fun _ =>
      plain (if h.w = 3 then (s.rs l.toNat).toNat % 2 ^ e h else if l.toNat < W h / e h then A h a l.toNat else 0)
  | .vins h d l b => some ⟨h, true, 3, d, e h, 1024 / e h, fun j =>
      plain (if j = l.toNat ∧ l.toNat < W h / e h then (s.rs b.toNat).toNat % 2 ^ e h else A h d j)⟩
  | .viota h d => row h (arith h) 3 d fun j => finish s.fmt (f h) (.fin false j 0)
  | .vkpop h d k => row h (arith h) 3 d fun _ =>
      finish s.fmt (f h) (.fin false ((List.range (W h / e h)).filter fun j => (s.rk h.cl k.toNat).testBit j).length 0)
  | .vrsum h d a k => some ⟨h, arith h, 6, d, e h, 1, fun _ => redTree s.fmt (f h) 0 8 (s.maskedLanes h a k (e h) (W h / e h))⟩
  | .vrmin h d a k => some ⟨h, arith h, 6, d, e h, 1, fun _ => redTree s.fmt (f h) 1 8 (s.maskedLanes h a k (e h) (W h / e h))⟩
  | .vrmax h d a k => some ⟨h, arith h, 6, d, e h, 1, fun _ => redTree s.fmt (f h) 2 8 (s.maskedLanes h a k (e h) (W h / e h))⟩
  | .vscan h d a o k => row h (arith h) 6 d fun j =>
      let r := scanFrom s.fmt (f h) o.toNat none (s.maskedLanes h a k (e h) (W h / e h))
      (nth 0 r.1 j, r.2)
  | .vqdx h d a t => some ⟨h, qdxOk (f h) (W h), 4, d, 1024, 1, fun _ =>
      qdxBlocks t.toNat 0 ((List.range (W h / e h)).map fun j => toExt (f h) false (A h a j))⟩
  | .vmov h d a => some ⟨h, true, 3, d, W h, 1, fun _ => plain (s.rv h.cl a.toNat % 2 ^ W h)⟩
  | .vcopy h d a => some ⟨h, true, 2, d, W h, 1, fun _ => plain (s.rv (!h.cl) a.toNat % 2 ^ W h)⟩
  | _ => none

/-- What a V slot delivers to a mask register: lane j's bit and its flags. -/
structure Bits where
  h : VHd
  ok : Bool
  m : BitVec 3
  el : Nat → Bool × Flags

/-- The V instructions that write a mask (R259, R261). -/
def maskRow (i : Instr) (s : State) : Option Bits :=
  let f (h : VHd) : Nat := fmtVF s.fmt h.cl
  let e (h : VHd) : Nat := elemBits (f h)
  let A (h : VHd) (a : BitVec 6) (j : Nat) : Nat := lane (s.rv h.cl a.toNat) (e h) j
  let B (h : VHd) (b : BitVec 6) (j : Nat) : Nat := if h.w = 3 then (s.rs b.toNat).toNat % 2 ^ e h else lane (s.rv h.cl b.toNat) (e h) j
  let arith (h : VHd) : Bool := isFloat (f h) || isInt (f h)
  let bitsOk (h : VHd) : Bool := isInt (f h) || f h == 14
  match i with
  | .vcmpeq h k a b => some ⟨h, arith h || f h == 14, k, fun j =>
      if isFloat (f h) then extRel .eq (src s.fmt (f h) (A h a j)) (src s.fmt (f h) (B h b j)) else (A h a j == B h b j, 0)⟩
  | .vcmplt h k a b => some ⟨h, arith h, k, fun j =>
      if isFloat (f h) then extRel .lt (src s.fmt (f h) (A h a j)) (src s.fmt (f h) (B h b j))
      else (intOf (f h) (A h a j) < intOf (f h) (B h b j), 0)⟩
  | .vcmple h k a b => some ⟨h, arith h, k, fun j =>
      if isFloat (f h) then extRel .le (src s.fmt (f h) (A h a j)) (src s.fmt (f h) (B h b j))
      else (intOf (f h) (A h a j) ≤ intOf (f h) (B h b j), 0)⟩
  | .vcmpltu h k a b => some ⟨h, bitsOk h, k, fun j => (A h a j < B h b j, 0)⟩
  | .vcmpleu h k a b => some ⟨h, bitsOk h, k, fun j => (A h a j ≤ B h b j, 0)⟩
  | .vkop h o m x y => some ⟨h, true, m, fun j =>
      let p := (s.rk h.cl x.toNat).testBit j
      let q := (s.rk h.cl y.toNat).testBit j
      (match o.toNat with
        | 0 => p && q | 1 => p || q | 2 => p != q | 3 => p && !q | 4 => p || !q | 5 => !(p && q) | 6 => !(p || q) | _ => p == q, 0)⟩
  | _ => none

/-- The lanes of a V slot: vector length over element width. -/
def laneCount (h : VHd) (s : State) : Nat := (match h.w.toNat with | 0 => 256 | 1 => 512 | _ => 1024) / elemBits (fmtVF s.fmt h.cl)

/-- The V instructions that write a scalar or predicate register (R261, R266). -/
def crossRow (i : Instr) (s : State) : Option Scalar :=
  let n (h : VHd) : Nat := laneCount h s
  match i with
  | .vany h p k => some ⟨0, 3, .p p.toNat, (decide (∃ j < n h, (s.rk h.cl k.toNat).testBit j = true)).toNat, 0⟩
  | .vall h p k => some ⟨0, 3, .p p.toNat, (decide (∀ j < n h, (s.rk h.cl k.toNat).testBit j = true)).toNat, 0⟩
  | .vexts h d a l =>
      let c := fmtVF s.fmt h.cl
      let j := if h.w = 3 then (s.rs l.toNat).toNat else l.toNat
      let x := if j < n h then lane (s.rv h.cl a.toNat) (elemBits c) j else 0
      some ⟨0, 3, .s d.toNat, if isSInt c then (sextN x (elemBits c) % 2 ^ 64).toNat else x % 2 ^ 64, 0⟩
  | _ => none

end Sys2Proof.Claims

/-- LANE RESULTS. A V slot that issues with a format it accepts (VADD, VSUB, VMUL, VMIN, VMAX, VFMA, VFMS, VMULH, VABS, VNEG, VAND, VOR, VXOR,
VANDN, VSHL, VSHR, VSAR, VPOPC, VSEL, VEXP2, VLOG2, VRCP, VRSQ, VSQRT, VCVT, VUNPK, VPACK, VPERMB, VSHUF, VBCAST, VINS, VIOTA, VKPOP, VRSUM,
VRMIN, VRMAX, VSCAN, VQDX, VMOV, VCOPY) sends to its destination register a value with the stated elements and, above them, the bits that
the destination held, at its latency, with the flags of all its lanes to its cluster's flag register. Nothing else changes (R253 to R275). VMUL's
sign of a zero product is the model's reading (log entry 9), and so are VCVT, VUNPK and VPACK between formats of one width (log entry 59). -/
def Obligations.LaneResults : Prop :=
  ∀ (i : Instr) (s : State) (r : Lanes), laneRow i s = some r → r.ok = true → Runs i s → Room s [s.vreg r.h.cl r.d.toNat] →
    ∃ t v fl, exec i s = .next t ∧ Sends s t r.lat (s.vreg r.h.cl r.d.toNat) (.bits v) (if r.h.cl then 2 else 1) fl ∧
      (∀ j < r.n, lane v r.w j = (r.el j).1 % 2 ^ r.w) ∧ v >>> (r.w * r.n) = s.rv r.h.cl r.d.toNat >>> (r.w * r.n) ∧
      ∀ b < 6, fl.getLsbD b = true ↔ ∃ j < r.n, ((r.el j).2).getLsbD b = true

/-- MASK RESULTS. VCMPEQ, VCMPLT, VCMPLE, VCMPLTU, VCMPLEU and VKOP that issue with a format they accept send, three cycles on, a mask whose
bits below the number of lanes are those of R259 or R261 and whose other bits are as the mask held them.
CROSS RESULTS. VANY, VALL and VEXTS send their predicate or scalar value three cycles on; nothing else changes. -/
def Obligations.MaskAndCrossResults : Prop :=
  (∀ (i : Instr) (s : State) (r : Bits), maskRow i s = some r → r.ok = true → Runs i s → Room s [.k r.h.cl r.m.toNat] →
      ∃ t v fl, exec i s = .next t ∧ Sends s t 3 (.k r.h.cl r.m.toNat) (.bits v) (if r.h.cl then 2 else 1) fl ∧
        (∀ j < laneCount r.h s, v.testBit j = (r.el j).1) ∧
        v >>> laneCount r.h s = s.read (.k r.h.cl r.m.toNat) 256 >>> laneCount r.h s ∧
        ∀ b < 6, fl.getLsbD b = true ↔ ∃ j < laneCount r.h s, ((r.el j).2).getLsbD b = true) ∧
  (∀ (i : Instr) (s : State) (r : Scalar), crossRow i s = some r → Runs i s → Room s [r.reg] →
      ∃ t, exec i s = .next t ∧ Sends s t r.lat r.reg (.bits r.val) 0 r.flags)

/-! ### Local memories (R132 to R143, R271 to R273, R295, R323) -/

namespace Sys2Proof.Claims

/-- A slot's access of a local memory: the bytes it takes, the address as the register and field give it, before R133 makes it an effective
address, the swizzle, and whether the memory is the scratchpad. -/
structure Local where
  n : Nat
  base : Word
  off : Nat
  z : Nat
  spad : Bool

/-- The operand forms of the local loads and stores. -/
def localRow (i : Instr) (s : State) : Option Local :=
  let V (h : VHd) : Nat := (match h.w.toNat with | 0 => 256 | 1 => 512 | _ => 1024) / 8
  match i with
  | .lds _ n _ a f => some ⟨2 ^ n.toNat, s.rs a.toNat, f.toNat * 2 ^ n.toNat, 0, true⟩
  | .sts _ n _ a f => some ⟨2 ^ n.toNat, s.rs a.toNat, f.toNat * 2 ^ n.toNat, 0, true⟩
  | .vld h _ a z f => some ⟨V h, s.rs a.toNat, f.toNat * V h, z.toNat, true⟩
  | .vst h _ a z f => some ⟨V h, s.rs a.toNat, f.toNat * V h, z.toNat, true⟩
  | .vlda h _ a f => some ⟨V h, s.rs a.toNat, f.toNat * V h, 0, false⟩
  | .vsta h _ a f => some ⟨V h, s.rs a.toNat, f.toNat * V h, 0, false⟩
  | .srld _ _ a => some ⟨32, s.rs a.toNat, 0, 0, true⟩
  | .srst _ _ a => some ⟨32, s.rs a.toNat, 0, 0, true⟩
  | _ => none

/-- The registers that a local load writes. -/
def localWrites (i : Instr) (s : State) : List RegId :=
  match i with
  | .lds _ _ d _ _ => [.s d.toNat]
  | .vld h d _ _ _ => [s.vreg h.cl d.toNat]
  | .vlda h d _ _ => [s.vreg h.cl d.toNat]
  | .srld _ g _ => [.gen g.toNat]
  | _ => []
/-- The limit of a local memory. -/
def Local.limit (x : Local) : Nat := if x.spad then 2 ^ 22 else 2 ^ 20
/-- The sum of register and field, in 64 bits. -/
def Local.sum (x : Local) : Nat := (x.base.toNat + x.off) % 2 ^ 64
/-- The address accessed: the sum rounded down to the size, its bank field swizzled (R133, R134). -/
def Local.addr (x : Local) : Nat := swz (x.sum / x.n * x.n) x.z

/-- A scratchpad access of `n` bytes at `a` can be made: its bank is free in this bundle and no watch matches it. -/
def Free (s : State) (a n : Nat) (wr : Bool) : Prop := bankOf a ∉ s.ctx.claims ∧ s.ctx.watchHit true (!wr) wr a n = none

end Sys2Proof.Claims

/-- LOCAL LOADS. LDS, VLD, VLDA and VLDC that issue, with the effective address below the memory's limit and, in the scratchpad, a free bank and
no watch match, send after six cycles the little-endian value of the bytes read: LDS zero-extended to its s register, the others in the low
bits of the vector register, whose other bits stay. A scratchpad access takes its bank for the rest of the bundle, and one of accumulator memory
its row, which the copy engine keeps off (R141; row r is claim 32 + r); nothing else changes. -/
def Obligations.LocalLoads : Prop :=
  (∀ (h : Hd) (n : BitVec 2) (d a f : BitVec 6) (s : State) (x : Local), localRow (.lds h n d a f) s = some x → x.sum < x.limit →
    Runs (.lds h n d a f) s → Free s x.addr x.n false → Room s [.s d.toNat] →
    ∃ t, exec (.lds h n d a f) s = .next t ∧ Sends (s.taking [bankOf x.addr]) t 6 (.s d.toNat) (.bits (leNat (s.spadRead x.addr x.n))) 0 0) ∧
  (∀ (h : VHd) (d a : BitVec 6) (z f : BitVec 3) (s : State) (x : Local), localRow (.vld h d a z f) s = some x → x.sum < x.limit →
    Runs (.vld h d a z f) s → Free s x.addr x.n false → Room s [s.vreg h.cl d.toNat] →
    ∃ t, exec (.vld h d a z f) s = .next t ∧ Sends (s.taking [bankOf x.addr]) t 6 (s.vreg h.cl d.toNat)
      (.bits (mergeLow (s.rv h.cl d.toNat) (leNat (s.spadRead x.addr x.n)) (8 * x.n))) (if h.cl then 2 else 1) 0) ∧
  (∀ (h : VHd) (d a : BitVec 6) (f : BitVec 3) (s : State) (x : Local), localRow (.vlda h d a f) s = some x → x.sum < x.limit →
    Runs (.vlda h d a f) s → Room s [s.vreg h.cl d.toNat] →
    ∃ t, exec (.vlda h d a f) s = .next t ∧ Sends (s.taking [32 + x.addr / 128]) t 6 (s.vreg h.cl d.toNat)
      (.bits (mergeLow (s.rv h.cl d.toNat) (leNat (s.accRead x.addr x.n)) (8 * x.n))) (if h.cl then 2 else 1) 0) ∧
  ∀ (h : VHd) (d : BitVec 6) (u l : BitVec 4) (q : BitVec 2) (s : State), Runs (.vldc h d u l q) s → Room s [s.vreg h.cl d.toNat] →
    let a := (s.cb u.toNat).readLine l.toNat + 128 * q.toNat
    Free s a (vwidth h / 8) false →
    ∃ t, exec (.vldc h d u l q) s = .next t ∧ Sends (s.taking [bankOf a]) t 6 (s.vreg h.cl d.toNat)
      (.bits (mergeLow (s.rv h.cl d.toNat) (leNat (s.spadRead a (vwidth h / 8))) (vwidth h))) (if h.cl then 2 else 1) 0

/-- LOCAL STORES. STS, VST, VSTA, SRST and VSTC that issue, under the same conditions, write their bytes at once, least significant first, from
the address computed, and no other byte of any memory; registers, flags and system registers are as before. While a copy command of the core runs, the bytes that it
reads or writes take undefined values instead (R304), and no other byte changes either. A VSTC to a buffer
whose producer is the copy engine leaves its whole 512-byte line undefined, and no other byte changed (R273). -/
def Obligations.LocalStores : Prop :=
  (∀ (i : Instr) (s : State) (x : Local) (v : Nat), s.memoriesWf → localRow i s = some x → x.sum < x.limit → Runs i s →
    (x.spad = true → Free s x.addr x.n true) →
    (match i with
      | .sts _ _ d _ _ => some (s.rs d.toNat).toNat
      | .vst h d _ _ _ => some (s.rv h.cl d.toNat)
      | .vsta h d _ _ => some (s.rv h.cl d.toNat)
      | .srst _ g _ => some ((s.gen g.toNat).ctr.toNat + (s.gen g.toNat).slot % 2 ^ 128 * 2 ^ 128)
      | _ => none) = some v →
    ∃ t, exec i s = .next t ∧ SameRegs s t ∧ SameSys s t ∧ SameGlobal s t ∧ SameUnits s t ∧ SameDevices s t ∧
      (s.core.copying none = [] → ∀ k < x.n, Memory.get (if x.spad then t.core.spad else t.core.accm) (x.addr + k) = BitVec.ofNat 8 (v / 256 ^ k)) ∧
      (if x.spad then SpadOutside s t x.addr x.n ∧ SameAccm s t else AccmOutside s t x.addr x.n ∧ SameSpad s t)) ∧
  ∀ (h : VHd) (d : BitVec 6) (u l : BitVec 4) (q : BitVec 2) (s : State), s.memoriesWf → Runs (.vstc h d u l q) s →
    let a := (s.cb u.toNat).writeLine l.toNat + 128 * q.toNat
    Free s a (vwidth h / 8) true →
    ∃ t, exec (.vstc h d u l q) s = .next t ∧ SameRegs s t ∧ SameSys s t ∧ SameAccm s t ∧ SameGlobal s t ∧ SameUnits s t ∧ SameDevices s t ∧
      (s.engineFeeds u.toNat = false →
        (s.core.copying none = [] → ∀ k < vwidth h / 8, Memory.get t.core.spad (a + k) = BitVec.ofNat 8 (s.rv h.cl d.toNat / 256 ^ k)) ∧
          SpadOutside s t a (vwidth h / 8)) ∧
      (s.engineFeeds u.toNat = true → SpadOutside s t ((s.cb u.toNat).writeLine l.toNat) 512)

/-! ### Registers written at issue (R81, R140, R192, R243, R318, R322, R323, R327) -/

namespace Sys2Proof.Claims

/-- A register that a slot writes in its issue cycle or, for the sequencer state, one cycle on: whether the slot's operands are legal, the
fault where they are not, the register and its value. -/
structure Now where
  ok : Bool
  code : Nat
  reg : RegId
  val : RegVal

/-- The hands, the generator registers, RP and FMT, which are written at issue. -/
def nowRow (i : Instr) (s : State) : Option Now :=
  match i with
  | .hclr _ n => some ⟨true, 0, .hand n.toNat, .hand ((s.hand n.toNat).map fun e => ⟨e.key, e.index, e.weight, false⟩)⟩
  | .smerge _ n c k a b =>
      let f := fmtVF s.fmt (c == 1)
      let m := s.rk (c == 1) k.toNat
      let cand := ((List.range 32).filter fun l => m.testBit l).map fun l =>
        (⟨BitVec.ofNat 32 (mapKey f (lane (s.rv (c == 1) a.toNat) 32 l)), BitVec.ofNat 32 ((s.rs b.toNat).toNat + l), 0, true⟩ : HEntry)
      some ⟨f == 0 || f == 8, 0x020C, .hand n.toNat, .hand (mergeHand (s.hand n.toNat) cand)⟩
  | .hwr _ n c x a => some ⟨true, 0, .hand n.toNat, .hand (((s.hand n.toNat).zipIdx).map fun e =>
      if e.2 / 32 = x.toNat then { e.1 with weight := BitVec.ofNat 32 (lane (s.rv (c == 1) a.toNat) 32 (e.2 % 32)) } else e.1)⟩
  | .sradd _ g a => some ⟨true, 0, .gen g.toNat, .gen ⟨(s.gen g.toNat).ctr +
      BitVec.ofNat 128 ((s.rs a.toNat).toNat + (s.rs (a.toNat + 1)).toNat * 2 ^ 64), (s.gen g.toNat).slot, []⟩⟩
  | .cbadvR _ b n => some ⟨decide (n.toNat ≤ (s.cb b.toNat).filled), 0x0209, .cbrp b.toNat,
      .bits (((s.cb b.toNat).rp + n.toNat) % 2 ^ 32)⟩
  | .fmtw _ a => some ⟨fmtLegal (s.rs a.toNat) (s.declares 0), 0x020C, .fmt, .fmt s.fmt (s.fmtQueue ++ [(s.rs a.toNat, s.ctx.pipe.ser + 5)])⟩
  | _ => none

/-- The sequencer state that an LP instruction writes: legal, level, its new state (R243). -/
def levelRow (i : Instr) (s : State) : Option (Bool × Nat × Level) :=
  match i with
  | .lpset _ l a b =>
      let x := (s.rs b.toNat).toNat
      let v := s.lvl l.toNat
      some (bits x 15 12 == 0 && bits x 31 28 == 0 && bits x 63 32 == 0, l.toNat,
        { v with
          trip := (s.rs a.toNat).toNat % 2 ^ 32, bstart := bits x 11 0, bend := bits x 27 16, idx := 0, strides := []
          modulo := if l = 0 then false else v.modulo, tiled := if l = 0 then false else v.tiled })
  | .lpstrd _ l k a b =>
      let v := s.lvl l.toNat
      some (true, l.toNat, { v with
        strides := if a = 0 then v.strides.filter (fun e => e.1 ≠ k.toNat) else tset v.strides k.toNat (a.toNat, s.rs b.toNat) })
  | .lpmod _ ii st => some (true, 0, { s.lvl 0 with ii := ii.toNat + 1, st := st.toNat + 1, modulo := true })
  | .lpmask _ m => some (true, 0, { s.lvl 0 with tm := m.toNat, tiled := true })
  | _ => none

end Sys2Proof.Claims

/-- REGISTERS WRITTEN AT ISSUE. HCLR, SMERGE, HWR, SRADD, CBADV.R and FMTW that issue with legal operands write their register in the issue
cycle, with its undo entry; an FMTW's value waits in line and applies from the fifth bundle issued after it. Nothing else changes. Operands
that are not legal are the fault 0x020C, or 0x0209 for CBADV.R beyond the filled slots, and change nothing. SRLD writes its generator register
from 32 bytes of the scratchpad, when their slot number is at most 15; a larger one is the fault 0x020C. That HCLR keeps keys and indices beside the
weights is the model's reading (log entry 20). -/
def Obligations.WrittenAtIssue : Prop :=
  (∀ (i : Instr) (s : State) (r : Now), nowRow i s = some r → Runs i s →
    (r.ok = true → Room s [r.reg] → ∃ t, exec i s = .next t ∧ Writes s t r.reg r.val) ∧
    (r.ok = false → Room s [r.reg] → s.ctx.pipe.fault = none → ∃ t, exec i s = .next t ∧ Faults s t r.code 0)) ∧
  ∀ (h : Hd) (g : BitVec 2) (a : BitVec 6) (s : State) (x : Local), localRow (.srld h g a) s = some x → x.sum < x.limit →
    Runs (.srld h g a) s → Free s x.addr 32 false →
    let v := leNat (s.spadRead x.addr 32)
    (v / 2 ^ 128 ≤ 15 → Room s [.gen g.toNat] → ∃ t, exec (.srld h g a) s = .next t ∧
      Writes (s.taking [bankOf x.addr]) t (.gen g.toNat) (.gen ⟨BitVec.ofNat 128 (v % 2 ^ 128), v / 2 ^ 128, []⟩)) ∧
    (15 < v / 2 ^ 128 → Room s [.gen g.toNat] → s.ctx.pipe.fault = none →
      ∃ t, exec (.srld h g a) s = .next t ∧ Faults s t 0x020C 0)

/-- SEQUENCER STATE. LPSET, LPSTRD, LPMOD and LPMASK send the new state of their level one cycle on, and change nothing else; while a nest is
active, or held aside by the handler, or with reserved bits set in LPSET's s[B], they are the fault 0x020B (R242, R243). -/
def Obligations.SequencerWrites : Prop :=
  ∀ (i : Instr) (s : State) (ok : Bool) (j : Nat) (v : Level), levelRow i s = some (ok, j, v) → Runs i s →
    (s.ctx.nestActive = false → ok = true → Room s [.lvl j] → ∃ t, exec i s = .next t ∧ Sends s t 1 (.lvl j) (.lvl v) 0 0) ∧
    ((s.ctx.nestActive = true ∨ ok = false) → Room s [.lvl j] → s.ctx.pipe.fault = none → ∃ t, exec i s = .next t ∧ Faults s t 0x020B 0)

namespace Sys2Proof.Claims

/-- The conditions on a nest of `d` levels (R68), and the TRIP range of a tile-mask L0 (R244). -/
structure Legal (s : State) (d : Nat) : Prop where
  idle : s.ctx.nestActive = false
  body : ∀ j < d, (s.lvl j).bstart ≤ (s.lvl j).bend ∧ (s.lvl j).bend < s.seg.code.length
  nested : ∀ j, 0 < j → j < d → (s.lvl j).bstart ≤ (s.lvl (j - 1)).bstart ∧ (s.lvl (j - 1)).bend ≤ (s.lvl j).bend
  outside : ¬ ((s.lvl (d - 1)).bstart ≤ s.ctx.cur.off ∧ s.ctx.cur.off ≤ (s.lvl (d - 1)).bend)
  trip : (s.lvl 0).tiled = true → 1 ≤ (s.lvl 0).trip ∧ (s.lvl 0).trip ≤ 1024

/-- From `s` to `t` the nest of `d` levels begins: each level gets IDX 0 one cycle on, L0 its MASK where it is tiled (R244), and no register changes before. -/
def Begins (s t : State) (d : Nat) : Prop :=
  t.ctx.ctl.depth = d ∧ t.ctx.ctl.inside = [] ∧ SameRegs s t ∧
    ∀ j < d, ∃ l ∈ t.ctx.pipe.infl, l.reg = .lvl j ∧ l.due = s.cyc + 1 ∧ ∃ v, l.val = .lvl v ∧ v.idx = 0 ∧
      v.trip = (s.lvl j).trip ∧ v.bstart = (s.lvl j).bstart ∧ v.bend = (s.lvl j).bend ∧ v.strides = (s.lvl j).strides ∧
      v.modulo = (s.lvl j).modulo ∧ v.ii = (s.lvl j).ii ∧ v.st = (s.lvl j).st ∧
      (j = 0 → v.tiled = true → ∀ k < 1024, v.mask.getLsbD k = (decide (k < v.trip) && (s.rtm v.tm).testBit k))

end Sys2Proof.Claims

/-- LPGO of depth 1 to 6 that issues with a legal nest completes: levels 0 to D − 1 become active, each with IDX 0, L0 with its MASK where it is tiled (R68,
R244). So does one with a modulo L0 whose rows pass the checks of R73. A nest already active, a body outside the segment or with BSTART above BEND, bodies not nested, an LPGO inside its
own outermost body, and a tile-mask L0 with TRIP outside 1 to 1024 are the fault 0x020B (R68, R244), behind the fault 0x0107 of a modulo L0 whose rows
fail a check. Each fault leaves everything else as it was. -/
def Obligations.NestStarts : Prop :=
  ∀ (h : Hd) (d : BitVec 3) (s : State), Runs (.lpgo h d) s → 0 < d.toNat → d.toNat < 7 →
    (Legal s d.toNat → (s.lvl 0).modulo = false → Room s ((List.range d.toNat).map RegId.lvl) →
      ∃ t, exec (.lpgo h d) s = .next t ∧ Begins s t d.toNat) ∧
    (Legal s d.toNat → moduloFault s = none → Room s ((List.range d.toNat).map RegId.lvl) →
      ∃ t, exec (.lpgo h d) s = .next t ∧ Begins s t d.toNat) ∧
    (¬ Legal s d.toNat → ((s.lvl 0).modulo = false ∨ moduloFault s = none) → Room s ((List.range d.toNat).map RegId.lvl) → s.ctx.pipe.fault = none →
      ∃ t, exec (.lpgo h d) s = .next t ∧ Faults s t 0x020B 0) ∧
    ∀ a, moduloFault s = some a → s.ctx.pipe.fault = none → ∃ t, exec (.lpgo h d) s = .next t ∧ Faults s t 0x0107 a

/-! ### Control transfers (R64, R237 to R241, R245) -/

/-- TRANSFERS. BR, CALL, RET, SEG and LPBRK whose condition holds, and a BRK whose mask is all ones, set the transfer that takes effect after
two delay bundles, with its target, its drain bit, and whether it leaves the nest; a CALL also sends its link to s63 one cycle on. With the
condition false the delay bundles run and nothing is taken. Registers are as before, but for L0's IDX where a transfer leaves a modulo loop
(R75), which is not this case. A BRK on a mixed mask is the fault 0x0202.
TARGETS. A displacement target is the transfer's bundle plus DISP slot words, when that is a slot of the segment's code; else it is the
address of no slot. A RET's target is the slot at the address in s63 (R209, R239). -/
def Obligations.Transfers : Prop :=
  ((∀ (i : Instr) (s : State), Runs i s → s.ctx.cur.iter = none →
      let set (t : State) (x : Xfer) : Prop := t = s.modCtl (fun c => { c with xfer := some x })
      let senses (p : BitVec 3) (e : BitVec 1) : Prop := s.rp p.toNat = decide (e = 1)
      match i with
      | .br _ n p e d => ∃ t, exec i s = .next t ∧
          (senses p e → set t ⟨3, some (s.dispTarget d), decide (n = 1), s.leaves (s.dispTarget d), false, false⟩) ∧
          (¬ senses p e → set t ⟨3, none, false, false, false, false⟩)
      | .ret _ n p e => ∃ t, exec i s = .next t ∧
          (senses p e → set t ⟨3, some s.retTarget, decide (n = 1), s.leaves s.retTarget, false, false⟩) ∧
          (¬ senses p e → set t ⟨3, none, false, false, false, false⟩)
      | .brk _ n c k d =>
          let w := 1024 / elemBits (fmtVF s.fmt (c == 1))
          let m := s.rk (c == 1) k.toNat % 2 ^ w
          ∃ t, exec i s = .next t ∧
            (m = 2 ^ w - 1 → set t ⟨3, some (s.dispTarget d), decide (n = 1), s.leaves (s.dispTarget d), true, false⟩) ∧
            (m = 0 → set t ⟨3, none, false, false, true, false⟩) ∧
            (m ≠ 0 → m ≠ 2 ^ w - 1 → s.ctx.pipe.fault = none →
              Faults (s.modCtl fun c => { c with xfer := some ⟨3, none, false, false, true, false⟩ }) t 0x0202 0)
      | .seg _ n p e k r =>
          let va := if k.toNat = 0 then s.seg.next else if k.toNat = 1 then s.seg.alt else (s.rs r.toNat).toNat % 2 ^ 56
          let tgt : Target := if k.toNat ≤ 1 ∧ va = 0 then .bad 0 else .seg va
          k.toNat ≤ 2 → ∃ t, exec i s = .next t ∧
            (senses p e → (k.toNat = 2 → va % 64 = 0) → set t ⟨3, some tgt, decide (n = 1), decide (0 < s.ctx.ctl.depth), false, false⟩) ∧
            (senses p e → k.toNat = 2 → va % 64 ≠ 0 → s.ctx.pipe.fault = none →
              Faults (s.modCtl fun c => { c with xfer := some ⟨3, none, false, false, false, false⟩ }) t 0x0303 va) ∧
            (¬ senses p e → set t ⟨3, none, false, false, false, false⟩)
      | .lpbrk _ n p e d => 0 < s.ctx.ctl.depth → ∃ t, exec i s = .next t ∧
          (senses p e → set t ⟨3, some (s.dispTarget d), decide (n = 1), true, true, false⟩) ∧
          (¬ senses p e → set t ⟨3, none, false, false, true, false⟩)
      | .call _ n p e d => Room s [.s 63] → ∃ t, exec i s = .next t ∧
          (senses p e → Sends (s.modCtl fun c => { c with xfer := some ⟨3, some (s.dispTarget d), decide (n = 1), false, false, false⟩ }) t 1 (.s 63)
            (.bits (s.callLink % 2 ^ 64)) 0 0) ∧
          (¬ senses p e → set t ⟨3, none, false, false, false, false⟩)
      | _ => True) ∧
    ∀ (h : Hd) (n : BitVec 1) (p : BitVec 3) (e : BitVec 1) (d : BitVec 15) (s : State), Runs (.lpbrk h n p e d) s → s.ctx.ctl.depth = 0 →
      s.ctx.pipe.fault = none → ∃ t, exec (.lpbrk h n p e d) s = .next t ∧
        Faults (s.modCtl fun c => { c with xfer := some ⟨3, none, false, false, true, false⟩ }) t 0x020B 0) ∧
  ((∀ (s : State) (d : BitVec 15) (n : Nat), (n : Int) = s.ctx.cur.off + d.toInt → n < s.seg.code.length → s.dispTarget d = .off n) ∧
    (∀ (s : State) (d : BitVec 15), ((s.ctx.cur.off : Int) + d.toInt < 0 ∨ (s.seg.code.length : Int) ≤ s.ctx.cur.off + d.toInt) →
      ∃ va, s.dispTarget d = .bad va) ∧
    ∀ (s : State) (n : Nat), n < s.seg.code.length → s.ctx.ctl.seg % 64 = 0 → (s.rs 63).toNat = codeVa s.ctx.ctl.seg n → s.retTarget = .off n)

/-! ### Global memory, engines and checkpoint bundles (R80 to R84, R138 to R167, R296 to R331) -/

namespace Sys2Proof.Claims

/-- The page-table root of a slot's context. -/
def rootOf (s : State) : Nat := (s.ctx.bind.map (·.root)).getD 0
/-- A virtual address in a register (R146). -/
def va (s : State) (a : BitVec 6) : Nat := (s.rs a.toNat).toNat % 2 ^ 56

/-- A slot whose effect is withheld until a checkpoint confirms: the alignment its address needs, the address, the bytes that watches see and
whether it reads them, its legality, its timeline counter, the effect with the number it takes, and the entry it makes among the engines' work. -/
structure Kept where
  align : Nat
  addr : Nat
  seen : List Nat
  bytes : Nat
  rd : Bool
  ok : Bool
  ctr : Option Nat
  eff : Nat → Eff
  q : Nat → Queues → Queues

/-- The withheld effects of the X and D slots. -/
def keptRow (i : Instr) (s : State) : Option Kept :=
  let id := s.ctx.q.nextId
  let same (_ : Nat) (q : Queues) : Queues := q
  let op (a : BitVec 6) (n : Nat) : List Nat := (List.range n).map fun k => (s.rs (a.toNat + k)).toNat
  let cmd (kind : Nat) (ops : List Nat) (cb : Nat) (mask : Wide) (n : Nat) (q : Queues) : Queues :=
    { q with cmds := q.cmds ++ [{ Cmd.reset with num := n, root := rootOf s, ser := id, kind := kind, ops := ops, cb := cb, mask := mask }] }
  let copy (kind : Nat) (ops : List Nat) (cb : Nat) (mask : Wide) : Option Kept :=
    some ⟨1, 0, [], 0, false, (copyFault kind ops mask.toNat).isNone, some 0, .cmd, cmd kind ops cb mask⟩
  let bytes (n : BitVec 3) (c : BitVec 1) (d : BitVec 6) : List Byte :=
    leBytes (2 ^ n.toNat) (if n.toNat ≤ 3 then (s.rs d.toNat).toNat else s.rv (c == 1) d.toNat)
  let size (ty : BitVec 3) : Nat := if ty.toNat = 0 ∨ ty.toNat = 2 ∨ ty.toNat = 4 then 4 else 8
  match i with
  | .stg _ n c a d => some ⟨2 ^ n.toNat, va s a, [va s a], 2 ^ n.toNat, false, true, none, fun _ => .store (va s a) (bytes n c d) none, same⟩
  | .stgr _ n c p a d =>
      some ⟨2 ^ n.toNat, va s a, [va s a], 2 ^ n.toNat, false, true, none, fun _ => .store (va s a) (bytes n c d) (some p.toNat), same⟩
  | .scat _ c d a x =>
      let e := elemBits (fmtVF s.fmt (c == 1)) / 8
      let ls := (List.range 32).filter fun l => lane (s.rv (c == 1) x.toNat) 32 l ≠ 2 ^ 32 - 1
      let at_ (l : Nat) : Nat := (va s a + lane (s.rv (c == 1) x.toNat) 32 l * e) % 2 ^ 56
      some ⟨e, va s a, ls.map at_, e, false, decide (e = 1 ∨ e = 2 ∨ e = 4), some 1,
        fun n => .scat n (ls.map fun l => (at_ l, leBytes e (lane (s.rv (c == 1) d.toNat) (8 * e) l))), same⟩
  | .atom _ o ty a => some ⟨size ty, va s a, [va s a], size ty, true, true, some 4,
      fun n => .atom n o.toNat ty.toNat (va s a) (BitVec.ofNat 64 ((s.rs (a.toNat + 1)).toNat % 2 ^ (8 * size ty)))
        (if o = 7 then BitVec.ofNat 64 ((s.rs (a.toNat + 2)).toNat % 2 ^ (8 * size ty)) else 0) none false, same⟩
  | .cpy _ a => copy 0 (op a 3) 0 0
  | .cpyt _ a => copy 1 (op a 6) 0 0
  | .cpym _ m a => copy 2 (op a 5) 0 (BitVec.ofNat 1024 (s.rtm m.toNat))
  | .cpyc _ b a => copy 3 (op a 4) b.toNat 0
  | .cbset _ b a => some ⟨1, 0, [], 0, false, cbsetOk (nth 0 (op a 3) 0) (nth 0 (op a 3) 1) (nth 0 (op a 3) 2), some 0, .cmd,
      cmd 4 (op a 3) b.toNat 0⟩
  | .cbadvW _ b n => some ⟨1, 0, [], 0, false, true, none, fun _ => .cbadv b.toNat n.toNat, same⟩
  | .coll _ a => some ⟨64, va s a, [], 0, false, true, some 3, .coll,
      fun n q => { q with colls := q.colls ++ [{ CollOp.reset with num := n, root := rootOf s, ser := id, va := va s a }] }⟩
  | .flagw _ m p a => some ⟨8, va s a, [], 0, false, true, none, fun _ => .flagw id,
      fun _ q => { q with flagws := q.flagws ++ [⟨id, 0, s.ctx.pipe.ser, va s a, s.rs (a.toNat + 1),
        ((List.range 5).filter fun k => m.toNat.testBit k).map (fun k => (k, tget 0 s.ctx.pipe.tl0 k)), p.toNat, false, false⟩] }⟩
  | _ => none

/-- No watch of the context matches a global access (R333). -/
def Unwatched (s : State) (rd wr : Bool) (as_ : List Nat) (n : Nat) : Prop := ∀ a ∈ as_, s.ctx.watchHit false rd wr a n = none

/-- A checkpoint bundle's effect (R84): alignment, address, watched bytes, legality, the fault where it is not legal, counter, effect. -/
def bundleRow (i : Instr) (s : State) : Option Kept :=
  let same (_ : Nat) (q : Queues) : Queues := q
  let size (ty : BitVec 3) : Nat := if ty.toNat = 0 ∨ ty.toNat = 2 ∨ ty.toNat = 4 then 4 else 8
  let atom (o ty : BitVec 3) (a d : BitVec 6) (x : Bool) : Option Kept :=
    some ⟨size ty, va s a, [va s a], size ty, true, true, some 4,
      fun n => .atom n o.toNat ty.toNat (va s a) (BitVec.ofNat 64 ((s.rs (a.toNat + 1)).toNat % 2 ^ (8 * size ty)))
        (if o = 7 then BitVec.ofNat 64 ((s.rs (a.toNat + 2)).toNat % 2 ^ (8 * size ty)) else 0) (some d.toNat) x, same⟩
  let plain (ok : Bool) (e : Eff) : Option Kept := some ⟨1, 0, [], 0, false, ok, none, fun _ => e, same⟩
  let seq (op c : Nat) (a d : BitVec 6) (x y : Word) : Option Kept :=
    some ⟨256, va s a, [], 0, false, true, none, fun _ => .seqop op c d.toNat (va s a) x y, same⟩
  match i with
  | .atomr _ o ty a d => atom o ty a d false
  | .atomx _ o ty a d => atom o ty a d true
  | .deal _ d => plain true (.deal d.toNat)
  | .gbar _ => plain true .gbar
  | .taskend _ => plain true .taskend
  | .syswr _ r n => plain (!s.inShadow) (.sysw n.toNat (s.rs r.toNat))
  | .watch _ w a => plain (!s.inShadow) (.sysw (0x40 + w.toNat)
      (BitVec.ofNat 64 (bits (s.rs (a.toNat + 1)).toNat 7 2 * 2 ^ 58 + bits (s.rs a.toNat).toNat 55 6 * 2 ^ 6)))
  | .trap _ c => plain (!s.inShadow) (.trap 0x0801 c.toNat s.ctx.slotVa s.ctx.cur.pos)
  | .bkpt _ c => plain (s.ctx.sys.bke && !s.inShadow) (.trap 0x0802 c.toNat s.ctx.slotVa s.ctx.cur.pos)
  | .eret _ => plain (s.ctx.sys.h && !s.inShadow) .eret
  | .sqfork _ c a d => seq 0 c.toNat a d (s.rs (a.toNat + 1)) 0
  | .sqapp _ c a d => seq 1 c.toNat a d (s.rs (a.toNat + 1)) (s.rs (a.toNat + 2))
  | .sqcommit _ c a d => seq 2 c.toNat a d (s.rs (a.toNat + 1)) (s.rs (a.toNat + 2))
  | .sqtrunc _ a d => seq 3 0 a d (s.rs (a.toNat + 1)) 0
  | .sqcur _ a d => seq 4 0 a d (s.rs (a.toNat + 1)) 0
  | .sqframe _ a d => seq 5 0 a d 0 0
  | _ => none

/-- The context once an operation has taken its number from a counter (R166): the counter goes up by one. -/
def counted (c : Ctx) (ctr : Option Nat) : Ctx :=
  match ctr with
  | none => c
  | some k => c.onQ fun q => { q with tl := tset q.tl k (tget 0 q.tl k + 1), tlOut := q.tlOut ++ [(k, tget 0 q.tl k + 1)] }
/-- The number taken. -/
def number (s : State) (ctr : Option Nat) : Nat := match ctr with | none => 0 | some k => tget 0 s.ctx.q.tl k + 1

end Sys2Proof.Claims

/-- WITHHELD EFFECTS. STG, STGR, SCAT, ATOM, CPY, CPYT, CPYM, CPYC, CBSET, CBADV.W, COLL and FLAGW that issue with an aligned address, legal
operands, no watch match and room in the withhold buffer take their number from their timeline counter, make their entry among the engines'
work, and put their effect last in the withhold buffer; CBSET and CBADV.W also count it against their handle. Every register and byte of
memory is as before: what they do to memory happens after a checkpoint has confirmed (R82). -/
def Obligations.WithheldEffects : Prop :=
  ∀ (i : Instr) (s : State) (k : Kept), keptRow i s = some k → Runs i s → k.ok = true → k.addr % k.align = 0 →
    Unwatched s k.rd true k.seen k.bytes → s.ctx.pipe.held.length < 256 →
    ∃ t, exec i s = .next t ∧
      t.ctx.pipe = { s.ctx.pipe with held := s.ctx.pipe.held ++ [s.heldEntry (k.eff (number s k.ctr)) s.ctx.q.nextId] } ∧
      t.ctx.q = { k.q (number s k.ctr) (counted s.ctx k.ctr).q with nextId := s.ctx.q.nextId + 1 } ∧
      (∀ l c r, (t.ctxAt l c).regs.get r = (s.ctxAt l c).regs.get r) ∧
      (match i with
        | .cbset _ b _ => (t.cb b.toNat).pendSet = (s.cb b.toNat).pendSet + 1
        | .cbadvW _ b n => (t.cb b.toNat).pendW = (s.cb b.toNat).pendW + n.toNat ∧ (t.cb b.toNat).wp = (s.cb b.toNat).wp
        | _ => SameRegs s t) ∧
      SameSys s t ∧ SameSpad s t ∧ SameAccm s t ∧ SameGlobal s t ∧ SameUnits s t ∧ SameDevices s t

/-- FAULTS OF WITHHELD EFFECTS. A 257th entry of the withhold buffer is the fault 0x0205 before any other check of the operation; an address that
is not aligned to the access is 0x0303, with the address (R82, R297, R310, R313, R315). An ERET outside a handler is 0x020E (R332); a SYSWR, WATCH,
TRAP, BKPT with BKE set, or ERET inside a format shadow is 0x0207, in or out of a handler (R63, R326). Each leaves everything else as it was. A BKPT with BKE
clear does nothing (R331). -/
def Obligations.WithheldFaults : Prop :=
  (∀ (i : Instr) (s : State) (k : Kept), keptRow i s = some k → Runs i s → s.ctx.pipe.fault = none →
    (256 ≤ s.ctx.pipe.held.length → ∃ t, exec i s = .next t ∧ Faults s t 0x0205 0) ∧
    (s.ctx.pipe.held.length < 256 → k.ok = true → k.addr % k.align ≠ 0 → ∃ t, exec i s = .next t ∧ Faults s t 0x0303 k.addr)) ∧
  (∀ (h : Hd) (s : State), Runs (.eret h) s → s.ctx.sys.h = false → s.inShadow = false → (∀ d ∈ s.ctx.q.deferred, d.ctr ≠ 5) →
    s.ctx.pipe.held.length < 256 → s.ctx.pipe.fault = none → ∃ t, exec (.eret h) s = .next t ∧ Faults s t 0x020E 0) ∧
  (∀ (i : Instr) (s : State), Runs i s → s.inShadow = true → s.ctx.pipe.fault = none → s.ctx.pipe.held.length < 256 →
    (match i with
      | .syswr .. | .watch .. | .trap .. | .eret .. => True
      | .bkpt .. => s.ctx.sys.bke = true
      | _ => False) → ∃ t, exec i s = .next t ∧ Faults s t 0x0207 0) ∧
  ∀ (h : Hd) (c : BitVec 12) (s : State), s.ctx.sys.bke = false → exec (.bkpt h c) s = .next s

/-- CHECKPOINT BUNDLES. ATOMR, ATOMX, DEAL, GBAR, TASKEND, SYSWR, WATCH, TRAP, BKPT with DBGCTL.BKE set, ERET in a handler, and SQFORK, SQAPP,
SQCOMMIT, SQTRUNC, SQCUR and SQFRAME that issue with an aligned address, outside a format shadow where they must be, and with no failed store
to report, withhold their effect, make their bundle a checkpoint, and hold the next bundle back until the response arrives (R84). A TASKEND also
begins the release of the array, and its nest ends with the bundle (R249). Registers, system registers and memory are as before. -/
def Obligations.CheckpointBundles : Prop :=
  ∀ (i : Instr) (s : State) (k : Kept), bundleRow i s = some k → Runs i s → k.ok = true → k.addr % k.align = 0 →
    Unwatched s k.rd true k.seen k.bytes → s.ctx.pipe.held.length < 256 →
    (match i with | .taskend _ => s.ctx.q.deferred = [] | _ => ∀ d ∈ s.ctx.q.deferred, d.ctr ≠ 5) →
    ∃ t, exec i s = .next t ∧ Awaits s t (k.eff (number s k.ctr)) ∧
      t.ctx.q = { (counted s.ctx k.ctr).q with nextId := s.ctx.q.nextId + 1 } ∧ t.ctx.pipe.infl = s.ctx.pipe.infl ∧
      (match i with
        | .taskend _ => t.endsTask = true ∧ (s.core.arr.owner = some s.sub → t.core.arr.releasing = true)
        | _ => SameUnits s t) ∧ t.ctx.ctl = s.ctx.ctl ∧
      SameRegs s t ∧ SameSys s t ∧ SameSpad s t ∧ SameAccm s t ∧ SameGlobal s t ∧ SameDevices s t

namespace Sys2Proof.Claims

/-- The cycle of the core that an agent of a die stands for, which a request of it carries from its sending on (R386). -/
def clock (s : State) (l : Loc) (agent : Nat) : Nat :=
  (s.coreAt (packetSource { blankPacket with spkg := l.pkg, sstn := l.die, agent := agent })).cycle

end Sys2Proof.Claims

/-- LOADS SENT. LDG and LDGA that issue with an aligned address, fewer than 32 entries in the load data queue and no watch match put one entry in
that queue, last, with no data yet, and their request last among those the load queue sends in order; registers and local memories are as before.
A 33rd entry is the fault 0x0203 and a misaligned address 0x0303 (R157, R297).
THE LOAD QUEUE. With nothing before it in the load queue, its page in a TLB of the core or die with R set, and its station in reach, with room for
a request and none redirected to that page before it, a load is sent at once: its request joins the unanswered requests to the station that owns the address, with the station's next SEQ, and a step for its arrival is in
flight (R157, R176, R180). -/
def Obligations.LoadsSent : Prop :=
  (∀ (h : Hd) (n : BitVec 3) (a : BitVec 6) (acq : Bool) (s : State),
      let i : Instr := if acq then .ldga h n a else .ldg h n a
      let x := va s a
      Runs i s →
      (s.ctx.q.ldq.length < 32 → x % 2 ^ n.toNat = 0 → Unwatched s true false [x] (2 ^ n.toNat) →
        ∃ t, exec i s = .next t ∧
          t = (s.modQ fun q => { q with
            nextId := q.nextId + 1
            ldq := q.ldq ++ [⟨q.nextId, s.ctx.pipe.ser, 2 ^ n.toNat, false, [], 0, 0⟩]
            lq := q.lq ++ [⟨q.nextId, s.ctx.pipe.ser, .load x (2 ^ n.toNat) acq, false⟩] }).sendLoads ∧
          t.ctx.q.ldq.map (·.id) = s.ctx.q.ldq.map (·.id) ++ [s.ctx.q.nextId] ∧
          SameRegs s t ∧ SameSys s t ∧ SameSpad s t ∧ SameAccm s t) ∧
      (32 ≤ s.ctx.q.ldq.length → s.ctx.pipe.fault = none → ∃ t, exec i s = .next t ∧ Faults s t 0x0203 0) ∧
      (s.ctx.q.ldq.length < 32 → x % 2 ^ n.toNat ≠ 0 → s.ctx.pipe.fault = none → ∃ t, exec i s = .next t ∧ Faults s t 0x0303 x)) ∧
  (∀ (s : State) (id ser x n pa pte : Nat), s.ctx.q.lq = [⟨id, ser, .load x n false, false⟩] → x < 2 ^ 56 → s.ctx.q.stq = [] →
      s.lookup s.focus (rootOf s) x = .ok pa pte → pte.testBit 1 = true → paStn pa < 10 →
      s.die.unreachable s.focus.pkg (paPkg pa) (paStn pa) = false → (s.route s.focus.pkg s.focus.die (paPkg pa) (paStn pa)).isSome = true →
      s.canSend s.focus s.focus.core pa = true →
      let k := srcKey s.focus.core (paPkg pa) (paStn pa)
      let r := tget Source.reset s.die.src k
      r.sent = [] →
      let pk : Packet := { loadPacket s.focus s.sub (rootOf s) x pa pte n (idLoad id) with
        faddr := x, spkg := s.focus.pkg, sstn := s.focus.die, seq := r.seq, own := decide (paPkg pa = s.focus.pkg ∧ paStn pa = s.focus.die)
        born := Claims.clock s s.focus s.focus.core }
      tget Source.reset s.sendLoads.die.src k = { r with seq := (r.seq + 1) % 2 ^ 16, sent := [(pk, 0, 0)] } ∧
        s.sendLoads.todo = s.todo ++ [⟨⟨paPkg pa, paStn pa, 0⟩, 0, .loadreq pk false⟩] ∧ s.sendLoads.ctx.q.lq = [])

/-- POPS. An LPOP, GPOP or FRD whose head entry is whole and without error takes it, keeps it for replay until a checkpoint confirms (R83), and
sends its value two cycles on: LPOP the little-endian value of the loaded bytes to an s register (up to 8 bytes) or the low bits of a vector
register, GPOP its 32 elements, FRD a word to an even pair or eight words to a vector register.
A pop of an empty queue is the fault 0x0204, and a pop of an entry whose access failed is that failure's code with its address, and leaves
the entry (R298, R300, R361). A GPOP whose cluster's VF has elements of another width than 8, 16 or 32 bits is the fault 0x020C (R299). That
GPOP takes the width of the popped elements from the entry all the same (log entry 66), and that a failed entry stays at the head (log entry
40), are the model's readings. -/
def Obligations.PopResults : Prop :=
  ((∀ (h : Hd) (f : BitVec 2) (d : BitVec 6) (s : State) (e : LdEnt) (t : List LdEnt), Runs (.lpop h f d) s → s.ctx.q.ldq = e :: t → e.err = 0 →
      let r : RegId := if f = 0 then .s d.toNat else s.vreg (f == 2) d.toNat
      let v := if f = 0 then leNat (e.data.take 8) % 2 ^ 64 else mergeLow (s.rv (f == 2) d.toNat) (leNat e.data) (8 * e.n)
      Room s [r] →
      ∃ u, exec (.lpop h f d) s = .next u ∧
        Sends (s.modQ fun q => { q with ldq := t, ldKept := q.ldKept ++ [(s.ctx.pipe.ser, e)] }) u 2 r (.bits v) 0 0) ∧
    (∀ (h : Hd) (c : BitVec 1) (d : BitVec 6) (s : State) (e : GEnt) (t : List GEnt), Runs (.gpop h c d) s → s.ctx.q.gdq = e :: t → e.err = 0 →
      elemBits (fmtVF s.fmt (c == 1)) ∈ [8, 16, 32] → Room s [s.vreg (c == 1) d.toNat] →
      ∃ u v, exec (.gpop h c d) s = .next u ∧
        Sends (s.modQ fun q => { q with gdq := t, gKept := q.gKept ++ [(s.ctx.pipe.ser, e)] }) u 2 (s.vreg (c == 1) d.toNat) (.bits v) 0 0 ∧
        (∀ j < 32, lane v (8 * e.e) j = leNat (tget [] e.lanes j) % 2 ^ (8 * e.e)) ∧
        v >>> (256 * e.e) = s.rv (c == 1) d.toNat >>> (256 * e.e)) ∧
    ∀ (h : Hd) (p k : BitVec 1) (r : BitVec 6) (c : BitVec 1) (s : State), Runs (.frd h p k r c) s →
      let n := if k = 0 then 1 else 8
      let out := (s.fi p.toNat).words.take n
      (∀ w ∈ out, w.err = 0) →
      let took := s.modQ fun q => { q with
        fi := tset q.fi p.toNat ⟨(s.fi p.toNat).words.drop n⟩, fiKept := q.fiKept ++ out.map fun w => (s.ctx.pipe.ser, p.toNat, w) }
      (k = 1 → Room s [s.vreg (c == 1) r.toNat] → ∃ u v, exec (.frd h p k r c) s = .next u ∧
        Sends took u 2 (s.vreg (c == 1) r.toNat) (.bits v) 0 0 ∧ ∀ j < 8, lane v 128 j = ((out[j]?).map fun w => w.word.toNat).getD 0) ∧
      (k = 0 → Room s [.s r.toNat, .s (r.toNat + 1)] → ∀ w, out = [w] → ∃ u m, exec (.frd h p k r c) s = .next u ∧
        Sends took m 2 (.s r.toNat) (.bits (w.word.toNat % 2 ^ 64)) 0 0 ∧ Sends m u 2 (.s (r.toNat + 1)) (.bits (w.word.toNat / 2 ^ 64)) 0 0)) ∧
  ((∀ (h : Hd) (f : BitVec 2) (d : BitVec 6) (s : State), Runs (.lpop h f d) s → s.ctx.pipe.fault = none →
      (s.ctx.q.ldq = [] → ∃ t, exec (.lpop h f d) s = .next t ∧ Faults s t 0x0204 0) ∧
      ∀ e l, s.ctx.q.ldq = e :: l → e.err ≠ 0 → Room s [if f = 0 then .s d.toNat else s.vreg (f == 2) d.toNat] →
        ∃ t g, exec (.lpop h f d) s = .next t ∧ t = s.modPipe (fun p => { p with fault := some g }) ∧ g.code = e.err ∧ g.faddr = e.faddr ∧
          g.ser = s.ctx.pipe.ser ∧ g.slot = s.ctx.cur.pos ∧ g.bundle = s.ctx.slotVa) ∧
    ∀ (h : Hd) (c : BitVec 1) (d : BitVec 6) (s : State), Runs (.gpop h c d) s → s.ctx.pipe.fault = none →
      (s.ctx.q.gdq = [] → ∃ t, exec (.gpop h c d) s = .next t ∧ Faults s t 0x0204 0) ∧
      ∀ e l, s.ctx.q.gdq = e :: l → Room s [s.vreg (c == 1) d.toNat] →
        (elemBits (fmtVF s.fmt (c == 1)) ∉ [8, 16, 32] → ∃ t, exec (.gpop h c d) s = .next t ∧ Faults s t 0x020C 0) ∧
        (elemBits (fmtVF s.fmt (c == 1)) ∈ [8, 16, 32] → e.err ≠ 0 →
          ∃ t f, exec (.gpop h c d) s = .next t ∧ t = s.modPipe (fun p => { p with fault := some f }) ∧ f.code = e.err ∧ f.faddr = e.faddr ∧
            f.ser = s.ctx.pipe.ser ∧ f.slot = s.ctx.cur.pos ∧ f.bundle = s.ctx.slotVa))

namespace Sys2Proof.Claims

/-- From `s` to `t` nothing changes but the tag table of the focus core. -/
def TagsOnly (s t : State) : Prop := ∃ tags, t = s.modCore fun k => { k with tags := tags }

end Sys2Proof.Claims

/-- GATHERS, FIFO WORDS, DROPS, TAGS AND MARKS. GPUSH puts one entry with its live lanes in the gather queue and takes a tlg number; FWR puts its
words in the outbound FIFO; QDROP drops the oldest entries and keeps them for replay, and waits for those of them that are still out; TSET and TCLR write one entry of the
tag table; QMARK and FENCE put a mark last in the load queue; YIELD, CKPT and MREL mark the context, the bundle and the array. Nothing else changes. A
65th gather entry is the fault 0x0203, and a QDROP of more entries than the queue holds the fault 0x0204 (R299, R301). -/
def Obligations.QueueSlots : Prop :=
  ∀ (i : Instr) (s : State), Runs i s →
    match i with
    | .gpush _ c a x =>
        let e := elemBits (fmtVF s.fmt (c == 1)) / 8
        let ls := (List.range 32).filter fun l => lane (s.rv (c == 1) x.toNat) 32 l ≠ 2 ^ 32 - 1
        let at_ (l : Nat) : Nat := (va s a + lane (s.rv (c == 1) x.toNat) 32 l * e) % 2 ^ 56
        let num := tget 0 s.ctx.q.tl 1 + 1
        (64 ≤ s.ctx.q.gdq.length → s.ctx.pipe.fault = none → ∃ t, exec i s = .next t ∧ Faults s t 0x0203 0) ∧
        (s.ctx.q.gdq.length < 64 → (e = 1 ∨ e = 2 ∨ e = 4) → va s a % e = 0 → Unwatched s true false (ls.map at_) e →
          ∃ t, exec i s = .next t ∧ t = (s.modCtx fun k => (counted k (some 1)).onQ fun q => { q with
            nextId := q.nextId + 1
            gdq := q.gdq ++ [⟨q.nextId, s.ctx.pipe.ser, num, e, [], ls.length, ls.isEmpty, 0, 0⟩]
            lq := q.lq ++ ls.map fun l => ⟨q.nextId, s.ctx.pipe.ser, .lane (at_ l) e l, false⟩ : Queues }.gatherWhole).sendLoads)
    | .fwr _ p k r c =>
        (∀ u, s.ctx.pipe.held.length + foWithheld (s.fo p.toNat).build (s.fwrWords k r c) ≤ 256 →
          s.foPush p.toNat (s.fwrWords k r c) = .ok u → ∃ t, exec i s = .next t ∧ t = u.sendLoads) ∧
        ∀ z b, k = 0 → s.ctx.pipe.held.length ≤ 256 → (s.fo p.toNat).build = z :: b → ¬ (b = [] ∧ bits z.toNat 3 0 = 4) → b.length + 2 ≠ foNeed z →
          ∃ t, exec i s = .next t ∧ t = (s.modQ fun q => { q with fo := tset q.fo p.toNat { s.fo p.toNat with
            held := (s.fo p.toNat).held + 1
            build := z :: b ++ [BitVec.ofNat 128 ((s.rs r.toNat).toNat + (s.rs (r.toNat + 1)).toNat * 2 ^ 64)] } }).sendLoads
    | .qdrop _ u n =>
        let k := if n = 0 then (if u = 0 then s.ctx.q.ldq.length else s.ctx.q.gdq.length) else n.toNat
        (k ≤ (if u = 0 then s.ctx.q.ldq.length else s.ctx.q.gdq.length) → ∃ t, exec i s = .next t ∧
          (u = 0 → t = s.modQ fun q => { q with
            ldq := q.ldq.drop k, ldKept := q.ldKept ++ (q.ldq.take k).map fun e => (s.ctx.pipe.ser, e)
            dropped := q.dropped ++ (q.ldq.take k).filter fun e => !e.done }) ∧
          (u = 1 → t = s.modQ fun q => { q with
            gdq := q.gdq.drop k, gKept := q.gKept ++ (q.gdq.take k).map fun e => (s.ctx.pipe.ser, e)
            gDropped := q.gDropped ++ (q.gdq.take k).filter fun e => !e.whole })) ∧
        ((if u = 0 then s.ctx.q.ldq.length else s.ctx.q.gdq.length) < k → s.ctx.pipe.fault = none →
          ∃ t, exec i s = .next t ∧ Faults s t 0x0204 0)
    | .tset _ w a b => ∃ t, exec i s = .next t ∧ TagsOnly s t ∧
        t.core.tag (tagSet (s.rs a.toNat).toNat) w.toNat = ⟨true, s.sub, s.rs a.toNat, (s.rs b.toNat).setWidth 16⟩ ∧
        ∀ st v, v < 8 → (st, v) ≠ (tagSet (s.rs a.toNat).toNat, w.toNat) → t.core.tag st v = s.core.tag st v
    | .tclr _ w a =>
        let st := bits (s.rs a.toNat).toNat 6 0
        ∃ t, exec i s = .next t ∧ TagsOnly s t ∧ t.core.tag st w.toNat = { s.core.tag st w.toNat with valid := false } ∧
          ∀ x v, v < 8 → (x, v) ≠ (st, w.toNat) → t.core.tag x v = s.core.tag x v
    | .qmark _ => ∃ t, exec i s = .next t ∧ t = s.modQ fun q => { q with
        nextId := q.nextId + 1, lq := q.lq ++ [⟨q.nextId, s.ctx.pipe.ser, .mark 1 false, false⟩] }
    | .fence _ p => (∀ d ∈ s.ctx.q.deferred, d.ctr ≠ 5) → ∃ t, exec i s = .next t ∧ t = s.modQ fun q => { q with
        nextId := q.nextId + 1, lq := q.lq ++ [⟨q.nextId, s.ctx.pipe.ser, .mark p.toNat true, false⟩] }
    | .yield _ => ∃ t, exec i s = .next t ∧ t = s.modCtx fun c => { c with yielding := true }
    | .ckpt _ =>
        (s.inShadow = false → ∃ t, exec i s = .next t ∧ (t.ctx.pipe.cks.any fun k => k.ser == s.ctx.pipe.ser) = true ∧
          t = s.modPipe fun p => { p with cks := t.ctx.pipe.cks }) ∧
        (s.inShadow = true → s.ctx.pipe.fault = none → ∃ t, exec i s = .next t ∧ Faults s t 0x0207 0)
    | .mrel _ => s.arrMine = true → ∃ t, exec i s = .next t ∧ t = s.modArr fun r => { r with releasing := true }
    | _ => True

/-- NOP does nothing (R211). CBWAIT, TLWAIT and TLLAG that issue, that is, that what they wait for has come, do nothing when no operation they cover has failed;
a CBWAIT for more slots than its buffer has is the fault 0x0209 (R307, R308).
WAITF that has found its outcome sends it to its predicate one cycle on, 1 for a match and 0 at the deadline, and ends; one whose load failed
is that failure with the flag's address. One that begins records its address, value and deadline (R205, R314). -/
def Obligations.WaitsPass : Prop :=
  ((∀ (h : Hd) (s : State), exec (.nop h) s = .next s) ∧
    (∀ (h : Hd) (b : BitVec 4) (n : BitVec 9) (s : State), Runs (.cbwait h b n) s →
      (n.toNat ≤ (s.cb b.toNat).nslot → n.toNat ≤ (s.cb b.toNat).filled ∧ exec (.cbwait h b n) s = .next s) ∧
      ((s.cb b.toNat).nslot < n.toNat → s.ctx.pipe.fault = none → ∃ t, exec (.cbwait h b n) s = .next t ∧ Faults s t 0x0209 0)) ∧
    (∀ (h : Hd) (c : BitVec 3) (o : BitVec 1) (x : BitVec 2) (im : BitVec 1) (n : BitVec 6) (s : State), (∀ d ∈ s.ctx.q.deferred, d.ctr ≠ c.toNat) →
      (Runs (.tlwait h c o x im n) s → exec (.tlwait h c o x im n) s = .next s ∧ s.tlwaitN c o x im n ≤ s.tlDone c o x) ∧
      (Runs (.tllag h c o x im n) s → exec (.tllag h c o x im n) s = .next s ∧ s.tllagN c o x im n ≤ s.tlDone c o x))) ∧
  (∀ (h : Hd) (k : BitVec 3) (a : BitVec 6) (s : State), s.qIssues h.q = true →
      (∀ w r, s.ctx.pipe.waitf = some w → w.result = some r → w.err = 0 → Room s [.p k.toNat] →
        ∃ t, exec (.waitf h k a) s = .next t ∧ Sends (s.modPipe fun p => { p with waitf := none }) t 1 (.p k.toNat) (.bits r.toNat) 0 0) ∧
      (∀ w r, s.ctx.pipe.waitf = some w → w.result = some r → w.err ≠ 0 → Room s [.p k.toNat] → s.ctx.pipe.fault = none →
        ∃ t, exec (.waitf h k a) s = .next t ∧ Faults (s.modPipe fun p => { p with waitf := none }) t w.err w.va) ∧
      (s.ctx.pipe.waitf = none → Room s [.p k.toNat] → va s a % 8 = 0 → ∃ t w, exec (.waitf h k a) s = .next t ∧ t.ctx.pipe.waitf = some w ∧
        w.va = va s a ∧ w.val = s.rs (a.toNat + 1) ∧ w.deadline = (s.rs (a.toNat + 2)).toNat))

/-! ### The sort unit and the generator (R191, R193, R196, R320, R322) -/

/-- HRD delivers the chosen field of 32 entries of a hand: the key, 0 where the entry is invalid, the index, all ones where invalid, or the weight
(R193, R319). SSORT delivers, after six cycles, the numbers of the lanes whose mask bit is 1 in rank order, a larger key first and of
equal keys the lower lane, and all ones in the lanes behind them (R320). -/
def Obligations.SortResults : Prop :=
  (∀ (h : Hd) (n : BitVec 2) (c : BitVec 1) (f : BitVec 2) (x : BitVec 1) (d : BitVec 6) (s : State), Runs (.hrd h n c f x d) s →
    Room s [s.vreg (c == 1) d.toNat] →
    ∃ t v, exec (.hrd h n c f x d) s = .next t ∧ Sends s t 6 (s.vreg (c == 1) d.toNat) (.bits v) 0 0 ∧
      ∀ j < 32, ∃ e, (s.hand n.toNat)[32 * x.toNat + j]? = some e ∧ lane v 32 j =
        (if f.toNat = 0 then (if e.valid then e.key.toNat else 0)
        else if f.toNat = 1 then (if e.valid then e.index.toNat else 2 ^ 32 - 1) else e.weight.toNat)) ∧
  ∀ (h : Hd) (c : BitVec 1) (k : BitVec 3) (a d : BitVec 6) (s : State), Runs (.ssort h c k a d) s →
    let cl : Bool := c == 1
    let f := fmtVF s.fmt cl
    let on (l : Nat) : Prop := (s.rk cl k.toNat).testBit l = true
    let key (l : Nat) : Nat := mapKey f (lane (s.rv cl a.toNat) 32 l) % 2 ^ 32
    let m := ((List.range 32).filter fun l => (s.rk cl k.toNat).testBit l).length
    (f = 0 ∨ f = 8) → Room s [s.vreg cl d.toNat] →
    ∃ t v, exec (.ssort h c k a d) s = .next t ∧ Sends s t 6 (s.vreg cl d.toNat) (.bits v) 0 0 ∧
      (∀ j, j + 1 < m → key (lane v 32 (j + 1)) < key (lane v 32 j) ∨
        key (lane v 32 (j + 1)) = key (lane v 32 j) ∧ lane v 32 j < lane v 32 (j + 1)) ∧
      (∀ j < m, lane v 32 j < 32 ∧ on (lane v 32 j)) ∧ (∀ l < 32, on l → ∃ j < m, lane v 32 j = l) ∧
      ∀ j, m ≤ j → j < 32 → lane v 32 j = 2 ^ 32 - 1

/-- SRND with its block at hand sends the block to the even pair three cycles on and adds 1 to the generator's counter in its issue cycle (R322);
with no key in the slot and no block it is the fault 0x0605. -/
def Obligations.RandomBlock : Prop :=
  ∀ (h : Hd) (g : BitVec 2) (d : BitVec 6) (s : State), Runs (.srnd h g d) s →
    (∀ b, (s.gen g.toNat).block = some b → Room s [.gen g.toNat, .s d.toNat, .s (d.toNat + 1)] →
      ∃ t m x r, exec (.srnd h g d) s = .next t ∧ Writes s m (.gen g.toNat) (.gen r) ∧ r.ctr = (s.gen g.toNat).ctr + 1 ∧
        r.slot = (s.gen g.toNat).slot ∧ Sends m x 3 (.s d.toNat) (.bits (b.toNat % 2 ^ 64)) 0 0 ∧
        Sends x t 3 (.s (d.toNat + 1)) (.bits (b.toNat / 2 ^ 64)) 0 0) ∧
    ((s.gen g.toNat).block = none → s.die.key (s.gen g.toNat).slot = none → Room s [.gen g.toNat, .s d.toNat, .s (d.toNat + 1)] →
      s.ctx.pipe.fault = none →
      ∃ t, exec (.srnd h g d) s = .next t ∧ Faults s t 0x0605 0)

/-! ### The M slots (R276 to R290) -/

namespace Sys2Proof.Claims

/-- The items that the M slots put in the feeder queue, with the slot's legality. -/
def itemRow (i : Instr) (s : State) : Option (Bool × ItemKind) :=
  let r (a : BitVec 6) : Nat := (s.rs a.toNat).toNat % 2 ^ 13
  let mc : Bool := fmtMC s.fmt == 0 || fmtMC s.fmt == 8
  match i with
  | .mshift _ a t => some (true, .shift (r a) t.toNat)
  | .mdrain _ a => some (true, .drain (r a))
  | .mscout _ d k => some (mc, .scout d.toNat ((if k = 7 then 0 else s.ridx k.toNat) % 1024))
  | .mcfg _ a => some (cfgOk (s.rs a.toNat).toNat (s.declares 5), .cfg (s.rs a.toNat).toNat)
  | .mthr _ a => some (bits (s.rs a.toNat).toNat 31 1 == 0 && mc, .thr (s.rs a.toNat).toNat)
  | _ => none

/-- The state with an item last in the feeder queue, eligible eight cycles on (R113). -/
def fed (s : State) (k : ItemKind) : State :=
  s.modArr fun r => { r with items := r.items ++ [⟨s.ctx.pipe.ser, s.sub, s.cyc + 8, s.fmt, k⟩] }

end Sys2Proof.Claims

/-- ARRAY ITEMS. MSHIFT, MDRAIN, MSCOUT, MCFG and MTHR of the context that owns the array put their item last in the feeder queue; MSCOUT also logs
its tile mask (R81). MCLR puts its clear there, makes the context the array's owner, cancels a release under way, and sets ZC to 0.
MCELL of the owner reads 64 bytes of the scratchpad and, if they are a valid cell program, puts it last in the feeder queue; else it is the
fault 0x020A (R286). -/
def Obligations.ArrayItems : Prop :=
  ((∀ (i : Instr) (s : State) (k : ItemKind), itemRow i s = some (true, k) → Runs i s → s.arrMine = true →
      (∀ h d n, i = .mscout h d n → Room s [.tm d.toNat]) →
      ∃ t, exec i s = .next t ∧
        t = fed (match i with | .mscout _ d _ => s.logUndo (.tm d.toNat) | _ => s) k) ∧
    ∀ (h : Hd) (s : State), Runs (.mclr h) s → Room s [.zc] →
      ∃ t m, exec (.mclr h) s = .next t ∧ Writes s m .zc (.bits 0) ∧
        t = fed (m.modArr fun r => { r with owner := some s.sub, releasing := false }) .clear) ∧
  (∀ (h : Hd) (a : BitVec 6) (s : State), Runs (.mcell h a) s → s.arrMine = true → (s.rs a.toNat).toNat < 2 ^ 22 →
      let ea := (s.rs a.toNat).toNat / 64 * 64
      let p := leNat (s.spadRead ea 64)
      bankOf ea ∉ s.ctx.claims →
      (progOk p = true → ∃ t, exec (.mcell h a) s = .next t ∧ t = fed (s.taking [bankOf ea]) (.cell p)) ∧
      (progOk p = false → s.ctx.pipe.fault = none → ∃ t, exec (.mcell h a) s = .next t ∧ Faults s t 0x020A 0))

/-- FEEDS. An MPUSH, or an MPUSHZ, whose tile mask lets it go and which finds a pair of ready lines, with its banks free and its two feeds in
different bank groups, puts a beat with the two lines and their scale lines in the feeder queue; MPUSHZ also writes ZC with the distance to the
pair it fed, which is live or the ninth (R128, R279 to R282). A slot whose tile mask bit is 0 does nothing. Which banks an MPUSHZ takes for the lines that it
may read, scale lines among them, is the model's choice (log entries 10 and 55). -/
def Obligations.Feeds : Prop :=
  ∀ (h : Hd) (z : Bool) (a b : BitVec 4) (m l k : BitVec 3) (e : BitVec 2) (s : State),
    let i : Instr := if z then .mpushz h a b m l k e else .mpush h a b m l k e
    Runs i s → s.arrMine = true →
    (m ≠ 0 → (s.rtm m.toNat).testBit ((if k = 7 then 0 else s.ridx k.toNat) % 1024) = false → exec i s = .next s) ∧
    ∀ L seen, s.gated m k = false → s.feed z a b l e = .pair L seen →
      let ca := s.cb a.toNat
      let cb := s.cb b.toNat
      let da := isDX (fmtMA s.fmt)
      let db := isDX (fmtMB s.fmt)
      let from_ := if l = 7 then 0 else s.ridx l.toNat
      let may := if z then (List.range 9).map fun c => from_ + s.read .zc 32 + c else [from_]
      let banks := feedBanks z ca da may ++ feedBanks z cb db may
      banks.Nodup → (∀ x ∈ banks, x ∉ s.ctx.claims) → (∀ x ∈ ca.feedGroups may, x ∉ cb.feedGroups may) → (z = true → Room s [.zc]) →
      let t1 := fed (s.taking banks) (.beat e.toNat (leNat (s.spadRead (ca.readLine L) 512)) (leNat (s.spadRead (cb.readLine L) 512))
        (if da then leNat (s.spadRead (ca.scaleAt L) 64) else 0) (if db then leNat (s.spadRead (cb.scaleAt L) 64) else 0))
      ∃ t, exec i s = .next t ∧
        (z = false → t = t1 ∧ L = from_) ∧
        (z = true → Writes t1 t .zc (.bits ((L - from_) % 2 ^ 32)) ∧ L = from_ + s.read .zc 32 + seen.length ∧
          (s.pairLive a b L = true ∨ seen.length = 8) ∧ ∀ x ∈ seen, s.pairLive a b x = false)

/-- A result for which the undo log has no room is the execution fault 0x0206 and is not sent (R81).
A V slot that issues with a format it does not accept is the fault 0x020C, and writes nothing (R252); the fault 0x0206 goes before it (R355).
Outside the bytes addressable a local access is the fault 0x020D, and in the scratchpad a bank already taken by the bundle is the fault
0x0201; neither accesses anything (R133, R136, R141).
An M slot of a context that does not own the array, other than MCLR, while no other context holds it, is the fault 0x0208 (R276), behind
0x0206 and 0x0201 (R355). -/
def Obligations.SlotFaults : Prop :=
  (∀ (i : Instr) (s : State) (r : Scalar), integerRow i s = some r ∨ floatRow i s = some r → Runs i s → s.rp r.guard.toNat = true →
      s.undoFull [r.reg] = true → s.ctx.pipe.fault = none →
      ∃ t, exec i s = .next t ∧ Faults s t 0x0206 0) ∧
  (∀ (i : Instr) (s : State), ((∃ r, laneRow i s = some r ∧ r.ok = false ∧ Room s [s.vreg r.h.cl r.d.toNat]) ∨
      ∃ r, maskRow i s = some r ∧ r.ok = false ∧ Room s [.k r.h.cl r.m.toNat]) → Runs i s → s.ctx.pipe.fault = none →
      ∃ t, exec i s = .next t ∧ Faults s t 0x020C 0) ∧
  (∀ (i : Instr) (s : State) (x : Local), localRow i s = some x → Runs i s → s.ctx.pipe.fault = none →
      (x.limit ≤ x.sum → Room s (localWrites i s) → ∃ t, exec i s = .next t ∧ Faults s t 0x020D 0) ∧
      (x.sum < x.limit → x.spad = true → bankOf x.addr ∈ s.ctx.claims → ∃ t, exec i s = .next t ∧ Faults s t 0x0201 0)) ∧
  (∀ (i : Instr) (s : State), (match i with
        | .mpush .. | .mpushz .. | .mshift .. | .mdrain .. | .mscout .. | .mcell .. | .mcfg .. | .mthr .. | .tmop .. | .mrel .. => True
        | _ => False) →
      Runs i s → s.arrMine = false → s.ctx.pipe.fault = none →
      (match i with
        | .mscout _ d _ => Room s [.tm d.toNat]
        | .tmop _ d _ _ _ => Room s [.tm d.toNat]
        | .mcell _ a => bankOf ((s.rs a.toNat).toNat / 64 * 64) ∉ s.ctx.claims
        | _ => True) → ∃ t, exec i s = .next t ∧ Faults s t 0x0208 0)

/-! ### Faults and their handlers (R331, R332, R355, R357) -/

/-- HANDLER ENTRY. A fault that is due and that the region's handler takes enters it: FCODE, FADDR, FBUNDLE, FSLOT and FRESUME are those of
the fault, FSTAT.H is 1, the context is back at its restart checkpoint, issue goes on at the entry of the handler's segment outside any
nest, and the control state, levels and rotation base of the program are held aside (R331, R357). A TRAP or BKPT whose bundle has
confirmed enters the same way without rollback. The flags, FSCR0 and FSCR1 are as before, and the watches but for one with ONE set that has been
reported.
A fault that no handler takes, of a region that does not run it again, leaves the region FAULTED or ended and the context stopped (R358, R359).
With nothing due a FAULT_REPORT changes nothing.
HANDLER RETURN. An ERET whose bundle has confirmed, with every pipeline empty, sets FSTAT.H to 0, gives the control state, the levels and the
rotation base held aside back, and leaves every other register as it is (R332). -/
def Obligations.HandlerEntryAndReturn : Prop :=
  ((∀ (s : State) (f : Found) (b : Bind), s.faultNow = some f → f.code ≠ 0x0503 → s.ctx.bind = some b → b.handler ≠ 0 → s.ctx.sys.h = false →
      ∃ t, exec .faultReport s = .next t ∧ t.ctx.sys.fcode = BitVec.ofNat 64 f.code ∧ t.ctx.sys.faddr = BitVec.ofNat 64 f.faddr ∧
        t.ctx.sys.fbundle = BitVec.ofNat 64 f.bundle ∧ t.ctx.sys.fslot = BitVec.ofNat 64 (f.slot % 8) ∧
        t.ctx.sys.fresume = BitVec.ofNat 64
          ((s.modCtx fun c => { c with q := c.q.delivered f.defd, sys := c.sys.reported f.watch } : State).rollback).resumeVa ∧ t.ctx.sys.h = true ∧
        t.ctx.ctl.seg = b.handler ∧ t.ctx.ctl.entry = true ∧ t.ctx.ctl.depth = 0 ∧ t.ctx.latch = [] ∧ t.ctx.pipe.fault = none ∧
        t.ctx.aside.map (·.1) = some s.ctx.pipe.restart.ctl ∧ t.ctx.bind = s.ctx.bind ∧
        t.ctx.sys.flg = s.ctx.sys.flg ∧ t.ctx.sys.fscr0 = s.ctx.sys.fscr0 ∧ t.ctx.sys.fscr1 = s.ctx.sys.fscr1 ∧
        ∀ n, tget 0 t.ctx.sys.watch n = tget 0 s.ctx.sys.watch n ∨
          f.watch = some n ∧ (tget 0 s.ctx.sys.watch n).getLsbD 59 = true ∧ tget 0 t.ctx.sys.watch n = tget 0 s.ctx.sys.watch n &&& 0x7FFFFFFFFFFFFFFF) ∧
    (∀ (s : State) (f : Found) (b : Bind) (r : Region), s.faultNow = some f → s.ctx.bind = some b → s.region? b.blk = some r → r.policy ≠ 2 →
      (f.code = 0x0503 ∨ b.handler = 0 ∨ s.ctx.sys.h = true) →
      ∃ t, exec .faultReport s = .next t ∧ t.ctx.stopping = 3 ∧ ∀ x, t.region? b.blk = some x → x.state = 4 ∨ x.state = 5) ∧
    (∀ s : State, s.faultNow = none → s.trapReady = none → s.ctx.mchk = none → exec .faultReport s = .next s) ∧
    ∀ (s : State) (code faddr bundle slot : Nat) (b : Bind), s.faultNow = none → s.trapReady = some (code, faddr, bundle, slot) →
      s.ctx.bind = some b → b.handler ≠ 0 → s.ctx.sys.h = false →
      ∃ t, exec .faultReport s = .next t ∧ t.ctx.sys.fcode = BitVec.ofNat 64 code ∧ t.ctx.sys.faddr = BitVec.ofNat 64 faddr ∧
        t.ctx.sys.fbundle = BitVec.ofNat 64 bundle ∧ t.ctx.sys.fslot = BitVec.ofNat 64 (slot % 8) ∧ t.ctx.sys.fresume = BitVec.ofNat 64 s.resumeVa ∧
        t.ctx.sys.h = true ∧ t.ctx.ctl.seg = b.handler ∧ t.ctx.ctl.entry = true ∧ t.ctx.ctl.depth = 0 ∧ t.ctx.pipe.wait = [] ∧
        t.ctx.aside = some (s.ctx.pipe.restart.ctl, s.ctx.regs.lvl, s.ctx.regs.base) ∧ SameRegs s t ∧ SameSpad s t ∧ SameAccm s t ∧ SameGlobal s t ∧
        t.ctx.sys.flg = s.ctx.sys.flg ∧ t.ctx.sys.fscr0 = s.ctx.sys.fscr0 ∧ t.ctx.sys.fscr1 = s.ctx.sys.fscr1 ∧ t.ctx.sys.watch = s.ctx.sys.watch) ∧
  (∀ (s : State) (ctl : Ctl) (lvl : Tab Level) (base : Nat), s.ctx.confirmDue s.cyc = none → s.eretReady = true →
      s.ctx.aside = some (ctl, lvl, base) →
      ∃ t, exec .checkpointConfirm s = .next t ∧ t.ctx.sys = { s.ctx.sys with h := false } ∧ t.ctx.ctl = ctl ∧ t.ctx.aside = none ∧
        t.ctx.pipe.wait = [] ∧ t.ctx.regs = { s.ctx.regs with lvl := lvl, base := base } ∧ SameSpad s t ∧ SameAccm s t ∧ SameGlobal s t)

/-! ### Reset -/

/-- RESET. Right after reset no die has booted and none is READY, no core issues, every memory has its canonical form, no region is launched and no context is bound;
FMT, the flags, the fault registers, FSTAT.H, the watches, the timeline counters and the key slots have the reset values of their rules
(R25, R33, R87, R104, R165, R329). The s, p, vector, mask and tile-mask registers hold 0, which is the model's choice (log entry 1). -/
def Obligations.ResetState : Prop :=
  State.reset.memoriesWf ∧ State.reset.regions = [] ∧
  (∀ p d, (State.reset.dieAt p d).boot = .off ∧ (State.reset.dieAt p d).keys = [] ∧ (State.reset.dieAt p d).regs = DevRegs.reset) ∧
  ∀ l c, (State.reset.coreAt l).on = false ∧ (State.reset.ctxAt l c).bind = none ∧ (State.reset.ctxAt l c).regs.fmt = 0 ∧
    (∀ n, tget 0 (State.reset.ctxAt l c).sys.flg n = 0) ∧ (State.reset.ctxAt l c).sys.fcode = 0 ∧ (State.reset.ctxAt l c).sys.faddr = 0 ∧
    (State.reset.ctxAt l c).sys.fbundle = 0 ∧ (State.reset.ctxAt l c).sys.fslot = 0 ∧ (State.reset.ctxAt l c).sys.fresume = 0 ∧
    (State.reset.ctxAt l c).sys.h = false ∧ (∀ n, tget 0 (State.reset.ctxAt l c).sys.watch n = 0) ∧
    (∀ n, tget 0 (State.reset.ctxAt l c).q.tl n = 0) ∧
    ∀ r, (∃ n, r = .s n ∨ r = .p n ∨ (∃ cl, r = .v cl n) ∨ (∃ cl, r = .k cl n) ∨ r = .tm n) → (State.reset.ctxAt l c).regs.get r = .bits 0

/-! ### Requests at their station (R155, R168 to R180, R361, R387) -/

namespace Sys2Proof.Claims

/-- The die that an address names. -/
def home (s : State) (pa : Nat) : Die := s.dieAt (paPkg pa) (paStn pa)

/-- `n` bytes at an address are HBM below HBMTOP, in sectors stored under the same ENC, without an error of any kind. -/
def Clean (s : State) (enc : Bool) (pa n : Nat) : Prop :=
  let m := (home s pa).store
  paStn pa ≤ 7 ∧ 0 < n ∧ paOff pa + n ≤ (home s pa).hbmTop ∧ (home s pa).hbmTop ≤ 2 ^ 40 ∧
    ∀ x ∈ sectorsOf (paOff pa) n, x ∉ m.poison ∧ x ∉ m.bad ∧ x ∉ m.dead ∧ x ∉ m.soft ∧ (x ∈ m.plain ↔ enc = false)

/-- `n` bytes at an address, as their home holds them. -/
def bytesAt (s : State) (pa n : Nat) : List Byte := (List.range n).map fun k => (home s pa).store.byte (paOff pa + k)

/-- No copy command is running, and none has a byte that another agent has written (R304). -/
def Calm (s : State) : Prop := ∀ e ∈ s.allCmds, e.2.2.running = false ∧ e.2.2.dirty = []

/-- An answer finds its way back: the source's die is READY and in use, and a route leads there (R13, R25, R410). -/
def WayBack (s : State) (pk : Packet) : Prop :=
  (s.dieAt pk.spkg pk.sstn).boot = .ready ∧ (s.dieAt pk.spkg pk.sstn).bypassed = false ∧
    (s.route (paPkg pk.dest) (paStn pk.dest) pk.spkg pk.sstn).isSome = true

/-- The station of a request takes it: its die is READY and in use, its inbound buffer has room, the request is whole and the next in SEQ order of its
source, with none of that source queued before it (R156), and no page is forwarded; no memory watch of the die is set. -/
def Taken (s : State) (pk : Packet) : Prop :=
  let d := home s pk.dest
  let e := atomicEngine pk.dest
  d.boot = .ready ∧ d.bypassed = false ∧ pk.seq = d.expected pk ∧ wbits d.regs.fwdctl 7 0 = 0 ∧ d.regs.mw = [] ∧ pk.part = 0 ∧
    (pk.own = true ∨ s.inboundFull (paPkg pk.dest) (paStn pk.dest) = false) ∧ mapsNothing pk.via.2.2 = false ∧ WayBack s pk ∧
    ∀ q ∈ (s.dieAt e.1 e.2.1).queued, ¬ (q.agent = pk.agent ∧ q.spkg = pk.spkg ∧ q.sstn = pk.sstn)

/-- The answer to a request. -/
def okAnswer (pk : Packet) (data : List Byte) : Packet :=
  { pk with aux := 0, data := data, seq := 0, enc := false, ichk := false, rc := false, part := 0 }

/-- From `s` to `t` the station has counted the request and one answer is on its way to the source. -/
def Answered (s t : State) (pk : Packet) (i : Instr) : Prop :=
  (home t pk.dest).expected pk = (pk.seq + 1) % 2 ^ 16 ∧ t.todo = s.todo ++ [⟨packetSource pk, pk.sctx, i⟩]

/-- From `s` to `t` the bytes of HBM, second tier and host memory change at most where an address lies in one of some ranges. -/
def GlobalOutsideAll (s t : State) (rs : List (Nat × Nat)) : Prop :=
  (∀ p d a, (∀ r ∈ rs, dieKey p d = dieKey (paPkg r.1) (paStn r.1) → a < paOff r.1 ∨ paOff r.1 + r.2 ≤ a) →
    (t.dieAt p d).store.byte a = (s.dieAt p d).store.byte a) ∧ ∀ a, Memory.get t.host.mem a = Memory.get s.host.mem a
/-- The same of one range of `n` bytes at an address. -/
def GlobalOutside (s t : State) (pa n : Nat) : Prop := GlobalOutsideAll s t [(pa, n)]

/-- What an atomic operation stores, by R170, in `n` bytes: 0 add, 3 and, 4 or, 5 xor, 6 swap, 7 cas; floating adds round once (R89); minimum
and maximum are those of the type. -/
def atomOf (op ty n old v cmp : Nat) : Nat :=
  match op with
  | 0 => if ty = 4 then (elAdd 0 0 old v).1 else (old + v) % 2 ^ (8 * n)
  | 1 => if ty = 2 ∨ ty = 3 then min old v else if ty = 4 then (elMinMax 0 false 0 old v).1 else if sextN old (8 * n) ≤ sextN v (8 * n) then old else v
  | 2 => if ty = 2 ∨ ty = 3 then max old v else if ty = 4 then (elMinMax 0 true 0 old v).1 else if sextN old (8 * n) ≤ sextN v (8 * n) then v else old
  | 3 => old &&& v
  | 4 => old ||| v
  | 5 => old ^^^ v
  | 6 => v
  | _ => if old = cmp then v else old

end Sys2Proof.Claims

/-- REQUESTS APPLIED. A LOADREQ that its station takes, for clean HBM within one 64-byte line that no atomic engine holds, is answered with the bytes
there, and changes no memory; a STORE writes its data there and nowhere else and is acknowledged; a STORELAST, with no STORE of its transfer
waiting, writes its data and then its flag, in the same die, and is acknowledged; each advances the SEQ that the station expects (R155, R172, R175,
R180). A request for a line that an engine holds joins its queue (R156, R168), and one that spans two lines enters the queues of their engines in
two parts, in ascending order (R155); neither changes memory yet. A STORELAST does so once no STORE of its transfer is to come, and with clean data and
flag (R172, R388). -/
def Obligations.RequestsApplied : Prop :=
  (∀ (pk : Packet) (s : State), s.memoriesWf → Calm s → Taken s pk → Clean s pk.enc pk.dest pk.size → pk.dest % 64 + pk.size ≤ 64 →
    s.heldLine pk.dest = none →
    (pk.typ = 1 → ∃ t, exec (.loadreq pk false) s = .next t ∧ SameGlobal s t ∧ SameRegs s t ∧ SameSys s t ∧ SameSpad s t ∧ SameAccm s t ∧
      Answered s t pk (.loadresp { okAnswer pk (bytesAt s pk.dest pk.size) with typ := 2 })) ∧
    (pk.typ = 3 → pk.data.length = pk.size → ∃ t, exec (.store pk false) s = .next t ∧ SameRegs s t ∧ SameSys s t ∧ SameSpad s t ∧ SameAccm s t ∧
      Answered s t pk (.ack { okAnswer pk [] with typ := 10 }) ∧ bytesAt t pk.dest pk.size = pk.data ∧ GlobalOutside s t pk.dest pk.size) ∧
    (pk.typ = 4 → pk.data.length = pk.size → pk.fwd = 0 → Clean s pk.enc pk.faddr 8 → paPkg pk.faddr = paPkg pk.dest → paStn pk.faddr = paStn pk.dest →
      (∀ e ∈ s.dies, e.2.xfers = []) → s.heldLine pk.faddr = none → s.transferQueued pk = false →
      ∃ t, exec (.storelast pk false) s = .next t ∧ SameRegs s t ∧ SameSys s t ∧ SameSpad s t ∧ SameAccm s t ∧
        Answered s t pk (.ack { okAnswer pk [] with typ := 10 }) ∧ bytesAt t pk.faddr 8 = leBytes 8 pk.fval ∧
        (∀ k < pk.size, (paOff pk.dest + k < paOff pk.faddr ∨ paOff pk.faddr + 8 ≤ paOff pk.dest + k) →
          (home t pk.dest).store.byte (paOff pk.dest + k) = nth 0 pk.data k) ∧
        GlobalOutsideAll s t [(pk.dest, pk.size), (pk.faddr, 8)])) ∧
  ∀ (i : Instr) (pk : Packet) (s : State), (i = .loadreq pk false ∨ i = .store pk false ∨ i = .storelast pk false ∧ Calm s ∧ pk.fwd = 0 ∧
      (∀ e ∈ s.dies, e.2.xfers = []) ∧ s.transferQueued pk = false ∧ pk.data.length = pk.size ∧ Clean s pk.enc pk.dest pk.size ∧ Clean s pk.enc pk.faddr 8 ∧
      paPkg pk.faddr = paPkg pk.dest ∧ paStn pk.faddr = paStn pk.dest) →
    Taken s pk → s.isReg pk.dest = false →
    (pk.size + pk.dest % 64 ≤ 64 → ∀ e, s.heldLine pk.dest = some e → exec i s = .next ((s.accept pk).toEngine e pk)) ∧
    (64 < pk.size + pk.dest % 64 → exec i s = .next (((s.accept pk).toEngine (atomicEngine pk.dest) { pk with part := 1 }).toEngine
      (atomicEngine (pk.dest + (64 - pk.dest % 64))) { pk with part := 2 }))

/-- ATOMICS APPLIED. An ATOMIC that its station takes joins the queue of its line's engine (R168); the engine applies the request at the head
of its queue to clean HBM: the new value of R170 is stored, nothing else changes in memory, and the old value goes back. -/
def Obligations.AtomicsApplied : Prop :=
  (∀ (pk : Packet) (s : State), Taken s pk → paStn pk.dest ≤ 7 → pk.typ = 5 → s.portWindow pk.dest = false →
    let e := (atomicEngine pk.dest).2.2
    ∃ t, exec (.atomic pk false) s = .next t ∧ SameGlobal s t ∧ SameRegs s t ∧
      tget [] (home t pk.dest).atomq e = tget [] (home s pk.dest).atomq e ++ [pk] ∧
      (home t pk.dest).expected pk = (pk.seq + 1) % 2 ^ 16 ∧
      t.todo = s.todo ++ [⟨⟨paPkg pk.dest, paStn pk.dest, 0⟩, 0, .atomicEngineApply e⟩]) ∧
  ∀ (e : Nat) (pk : Packet) (rest : List Packet) (s : State), s.memoriesWf → Calm s → tget [] s.die.atomq e = pk :: rest → pk.typ = 5 → pk.part = 0 →
    paPkg pk.dest = s.focus.pkg → paStn pk.dest = s.focus.die → Clean s pk.enc pk.dest pk.size → (home s pk.dest).regs.mw = [] → WayBack s pk →
    pk.size = (if pk.aux % 8 = 0 ∨ pk.aux % 8 = 2 ∨ pk.aux % 8 = 4 then 4 else 8) → pk.data.length = 16 →
    let n := pk.size
    let old := bytesAt s pk.dest n
    let new := atomOf (pk.aux / 8) (pk.aux % 8) n (leNat old) (leNat (pk.data.take n)) (leNat ((pk.data.drop 8).take n))
    ∃ t, exec (.atomicEngineApply e) s = .next t ∧ tget [] t.die.atomq e = rest ∧ bytesAt t pk.dest n = leBytes n new ∧ GlobalOutside s t pk.dest n ∧
      SameRegs s t ∧
      t.todo = s.todo ++ [⟨packetSource pk, pk.sctx, .atomresp { okAnswer pk (old ++ List.replicate (16 - n) 0) with typ := 6 }⟩]

/-- REFUSALS. A request that is not the next of its source in SEQ order is refused: it recirculates once with RC set, and the second time a NACK
with reason 2 goes to its source; nothing is applied (R180, R181). A slot of undefined content is logged with code 0x0403 and
discarded, and no answer goes out, so that its source will time out (R386, R387). -/
def Obligations.Refusals : Prop :=
  (∀ (i : Instr) (pk : Packet) (s : State),
    (i = .loadreq pk false ∨ i = .store pk false ∨ i = .storelast pk false ∨ i = .atomic pk false ∨
      i = .collPacket pk false ∧ pk.part = 0 ∧ s.lineQueued pk.dest 64 = false) →
    (home s pk.dest).boot = .ready → (home s pk.dest).bypassed = false → pk.seq ≠ (home s pk.dest).expected pk → pk.own = false →
    (pk.rc = false → exec i s = .next (s.post ⟨paPkg pk.dest, paStn pk.dest, 0⟩ 0 (packetArrive { pk with rc := true }))) ∧
    (pk.rc = true → WayBack s pk → exec i s = .next (s.post (packetSource pk) pk.sctx
      (.nack { pk with typ := 9, aux := 2, seq := 0, enc := false, ichk := false, rc := false, data := [] })))) ∧
  ∀ (pk : Packet) (s : State), ∃ t, exec (.undefinedPacket pk) s = .next t ∧ SameGlobal s t ∧ SameRegs s t ∧
    t.todo = s.todo ++ [⟨⟨pk.spkg, pk.sstn, 0⟩, 0, .requestTimeout pk.agent (paPkg pk.dest) (paStn pk.dest)⟩] ∧
    (home t pk.dest).regs.elogcnt = (home s pk.dest).regs.elogcnt + 1 ∧
    tget (0, 0, 0, 0) (home t pk.dest).regs.elog ((home s pk.dest).regs.elogcnt % 64) =
      (BitVec.ofNat 64 (0x0403 + pk.agent * 2 ^ 16 + pk.sctx * 2 ^ 24 + pk.sstn * 2 ^ 32 + pk.spkg * 2 ^ 36), BitVec.ofNat 64 pk.dest, 0, 0)

/-- CONTRIBUTIONS. The first packet of a member other than member 0 for the current instance of a collective group, whose part of the slot buffer lies in
one page that the die's TLB holds, lands there, is acknowledged, and changes no other byte (R184; how the packet's header names instance and
member is the model's, log entry 21). -/
def Obligations.ContributionLands : Prop :=
  ∀ (pk : Packet) (s : State) (l slot pte : Nat) (k : CollOp),
    let idx := pk.fval / 2 ^ 16 % 2 ^ 16
    let va := collSlot k.blk (pk.fval % 2 ^ 16) idx (pk.fval / 2 ^ 32 * collSize (blkFmt k.blk))
    s.memoriesWf → Calm s → Taken s pk → pk.typ = 7 → s.collSource pk = some (l, k) → s.collAhead pk = 0 → (home s pk.dest).colls = [] →
    0 < idx → 0 < blkN k.blk → va % 65536 + pk.data.length ≤ 65536 →
    s.lookup ⟨paPkg pk.dest, paStn pk.dest, 20⟩ k.root (va % 2 ^ 56) = .ok slot pte → pte.testBit 2 = true → mapsNothing pte = false →
    (home s pk.dest).queued = [] →
    paPkg slot = paPkg pk.dest → paStn slot = paStn pk.dest → paOff pk.dest + 64 ≤ paOff slot → Clean s (pteEnc pte) slot pk.data.length →
    ∃ t, exec (.collPacket pk false) s = .next t ∧ Answered s t pk (.ack { okAnswer pk [] with typ := 10 }) ∧ SameRegs s t ∧
      bytesAt t slot pk.data.length = pk.data ∧ GlobalOutside s t slot pk.data.length

/-! ### Answers at their source (R157, R176, R181, R299, R361, R378, R385, R386) -/

namespace Sys2Proof.Claims

/-- The record that a packet's source keeps for the station that the packet names. -/
def kept (s : State) (pk : Packet) : Source := s.source (packetSource pk) pk.agent (paPkg pk.dest) (paStn pk.dest)
/-- The context that a packet names as its source. -/
def owner (s : State) (pk : Packet) : Ctx := s.ctxAt (packetSource pk) pk.sctx
/-- The one request that a source has out to the station is this one, `a` times refused and backing off until `b`; its agent has none redirected. -/
def Sole (s : State) (pk q : Packet) (a b : Nat) : Prop :=
  (kept s pk).sent = [(q, a, b)] ∧ (kept s pk).moved = [] ∧ (∀ r ∈ (s.dieAt pk.spkg pk.sstn).src, r.1 / 256 = pk.agent → r.2.redir = []) ∧
    q.fval = pk.fval ∧ q.id = pk.id ∧ q.sctx = pk.sctx ∧ q.dest = pk.dest ∧ q.tag = pk.tag ∧ q.agent = pk.agent ∧
    q.born = pk.born ∧ q.spkg = pk.spkg ∧ q.sstn = pk.sstn

end Sys2Proof.Claims

/-- ANSWERS. An answer takes its request out of its source's record. A LOADRESP puts its data in the entry of the load data queue that it answers, or, as
an error response, the code of R361; an ACK ends its store, or leaves the store's failure to be reported; an ATOMRESP writes the old
value to s[D] and lets the next bundle issue; a gather entry that is whole completes its tlg operation (R157, R166, R176, R299, R361). -/
def Obligations.AnswersDelivered : Prop :=
  (∀ (pk q : Packet) (n a b : Nat) (s : State), Sole s pk q a b → pk.id = idLoad n → (owner s pk).q.lq = [] →
    (pk.aux = 0 ∨ 1 ≤ pk.aux ∧ pk.aux ≤ 6) → (owner s pk).q.dropped = [] →
    ∃ t, exec (.loadresp pk) s = .next t ∧ (kept t pk).sent = [] ∧ (owner t pk).q.ldq = (owner s pk).q.ldq.map fun e =>
      if e.id = n then (if pk.aux = 0 then { e with done := true, data := pk.data } else { e with done := true, err := 0x0300 + pk.aux, faddr := pk.faddr }) else e) ∧
  (∀ (pk q : Packet) (n a b va root rel : Nat) (data : List Byte) (sc : Option Nat) (s : State), Sole s pk q a b → pk.id = idStore n 0 →
    (owner s pk).q.lq = [] → (owner s pk).q.stq = [⟨n, root, rel, 0, .store va data sc, true⟩] → (pk.aux = 0 ∨ 1 ≤ pk.aux ∧ pk.aux ≤ 6) →
    ∃ t, exec (.ack pk) s = .next t ∧ (kept t pk).sent = [] ∧ (owner t pk).q.stq = [] ∧
      (owner t pk).q.deferred = (owner s pk).q.deferred ++ if pk.aux = 0 then [] else [⟨n, 5, 0, 0x0300 + pk.aux, va⟩]) ∧
  (∀ (pk q : Packet) (n a b num op ty va root rel d : Nat) (v cmp : Word) (x : Bool) (s : State), Sole s pk q a b → pk.id = idStore n 0 →
    (owner s pk).q.lq = [] → (owner s pk).q.stq = [⟨n, root, rel, 0, .atom num op ty va v cmp (some d) x, true⟩] → pk.aux = 0 → 0 < d →
    ∃ t, exec (.atomresp pk) s = .next t ∧ (kept t pk).sent = [] ∧ (owner t pk).q.stq = [] ∧
      (owner t pk).pipe.wait = (owner s pk).pipe.wait.filter (fun w => w.eff.kind != 0) ∧
      tget 0 (owner t pk).regs.s d = atomOld ty pk.data ∧ (∀ r, r ≠ .s d → (owner t pk).regs.get r = (owner s pk).regs.get r) ∧
      (4, num) ∉ (owner t pk).q.tlOut) ∧
  ∀ (num : Nat) (s : State), (s.ctx.q.allGathers.any fun e => e.num == num && e.whole) = true →
    ∃ t, exec (.gatherEntryWhole num) s = .next t ∧ (1, num) ∉ t.ctx.q.tlOut ∧ (∀ e ∈ s.ctx.q.tlOut, e ≠ (1, num) → e ∈ t.ctx.q.tlOut) ∧
      t.ctx.q.gdq = s.ctx.q.gdq ∧ SameRegs s t ∧ SameGlobal s t

/-- RETRIES. A NACK makes its source count the refusal and back off for 64 cycles, doubled for every one before it; at the eighth the
request fails with 0x0401. When the time has passed the source sends the request that backs off, and every later one, again in order. With a request
without an answer for 2^20 cycles of its core, all to its station fail with 0x0402, and UNRCH names the station, at bit 16 plus its package for one of another
package; for the requests of a unit of a die no age is stated (R181, R385, R386; log entry 25).
REDIRECT. A request answered with REDIRECT, of the kind that its translation asks for or through one that asks for none, goes out again to its new
home with one more forward counted; after four forwards it fails with 0x0307, and of another kind with 0x0301 (R378). -/
def Obligations.Retries : Prop :=
  ((∀ (pk q : Packet) (a b : Nat) (s : State), Sole s pk q a b →
      (a < 7 → ∃ t, exec (.nack pk) s = .next t ∧ (kept t pk).sent = [(q, a + 1, 64 * 2 ^ a)] ∧
        t.todo = s.todo ++ [⟨packetSource pk, 0, .retryBackoffExpiry pk.agent (paPkg pk.dest) (paStn pk.dest)⟩]) ∧
      (∀ n, a = 7 → pk.id = idLoad n → (owner s pk).q.lq = [] → (owner s pk).q.dropped = [] →
        ∃ t, exec (.nack pk) s = .next t ∧ (kept t pk).sent = [] ∧ (owner t pk).q.ldq =
          (owner s pk).q.ldq.map fun e => if e.id = n then { e with done := true, err := 0x0401, faddr := q.faddr } else e)) ∧
    (∀ (agent p d : Nat) (s : State), (∃ e ∈ (s.source s.focus agent p d).sent, 0 < e.2.2) → s.todo = [] →
      s.die.unreachable s.focus.pkg p d = false →
      (∀ e ∈ (s.source s.focus agent p d).sent, (s.route e.1.spkg e.1.sstn (paPkg e.1.dest) (paStn e.1.dest)).isSome = true) →
      ∃ t, exec (.retryBackoffExpiry agent p d) s = .next t ∧
        (t.source s.focus agent p d).sent = (s.source s.focus agent p d).sent.map (fun e => (e.1, e.2.1, 0)) ∧
        t.todo = ((s.source s.focus agent p d).sent.dropWhile fun e => e.2.2 == 0).map fun e =>
          ⟨⟨paPkg e.1.dest, paStn e.1.dest, 0⟩, 0, packetArrive e.1⟩) ∧
    ∀ (agent p d n a b : Nat) (q : Packet) (s : State), (s.source s.focus agent p d).sent = [(q, a, b)] → q.id = idLoad n → p < 16 → d < 10 →
      (40 ≤ agent ∨ q.born + 2 ^ 20 ≤ (s.coreAt (packetSource q)).cycle) → (∀ r ∈ s.die.src, r.1 / 256 = agent → r.2.redir = []) →
      (owner s q).q.lq = [] → (owner s q).q.dropped = [] →
      ∃ t, exec (.requestTimeout agent p d) s = .next t ∧ (t.source s.focus agent p d).sent = [] ∧
        t.die.regs.unrch.getLsbD (if p = s.focus.pkg then d else 16 + p) = true ∧
        (owner t q).q.ldq = (owner s q).q.ldq.map fun e => if e.id = n then { e with done := true, err := 0x0402, faddr := q.faddr } else e) ∧
  (∀ (pk q : Packet) (a b : Nat) (s : State), Sole s pk q a b →
      let new := bits (leNat pk.data) 55 16 * 2 ^ 16 + pk.dest % 2 ^ 16
      let kind := bits (leNat pk.data) 1 0
      let asks := bits q.via.2.2 10 9
      let l := packetSource pk
      let r := s.source l pk.agent (paPkg new) (paStn new)
      (asks = 0 ∨ asks = kind → q.fwd < 4 → paStn new < 10 → (paPkg new, paStn new) ≠ (paPkg pk.dest, paStn pk.dest) →
        (s.dieAt l.pkg l.die).unreachable l.pkg (paPkg new) (paStn new) = false →
        (s.route l.pkg l.die (paPkg new) (paStn new)).isSome = true → r.sent = [] →
        ∃ t, exec (.redirect pk) s = .next t ∧ (kept t pk).sent = [] ∧ (kept t pk).redir = [] ∧
          t.todo = s.todo ++ [⟨⟨paPkg new, paStn new, 0⟩, 0, packetArrive { q with
            dest := new, fwd := q.fwd + 1, spkg := l.pkg, sstn := l.die, rc := false, seq := r.seq
            own := decide (paPkg new = l.pkg) && decide (paStn new = l.die), born := clock s l q.agent }⟩]) ∧
      ∀ n, pk.id = idLoad n → (owner s pk).q.lq = [] → (owner s pk).q.dropped = [] →
        let fails (code : Nat) : Prop := ∃ t, exec (.redirect pk) s = .next t ∧ (kept t pk).sent = [] ∧ (owner t pk).q.ldq =
          (owner s pk).q.ldq.map fun e => if e.id = n then { e with done := true, err := code, faddr := q.faddr } else e
        (asks = 0 ∨ asks = kind → 4 ≤ q.fwd → fails 0x0307) ∧ (asks ≠ 0 → asks ≠ kind → fails 0x0301))

/-! ### The host (R188 to R190) -/

namespace Sys2Proof.Claims

/-- A request of the host port's bridge, the next to its station. -/
def hostPacket (s : State) (p d typ pa n : Nat) (data : List Byte) : Packet :=
  { blankPacket with
    typ := typ, size := n, dest := pa, agent := 43, data := data, id := idHost s.host.nextTag, spkg := p, sstn := d
    seq := (s.source ⟨p, d, 0⟩ 43 (paPkg pa) (paStn pa)).seq, own := decide (paPkg pa = p) && decide (paStn pa = d), born := clock s ⟨p, d, 0⟩ 43 }

end Sys2Proof.Claims

/-- HOST ACCESSES. BAR2 is the window of 64 GiB at WINBASE, and BAR0 holds the registers of the package's stations, read and written whole (R188). A
read and a write of the host within one line go out to the fabric address that their BAR gives, when nothing of the host is out or waits; a
read behind a write that is not yet acknowledged waits (R189; log entry 23). A read that the BARs do not allow is answered as an Unsupported Request, in
its turn too, and such a write is dropped (R188, R416).
HOST COMPLETIONS. The completion behind a write to host memory lets its acknowledgement, or an atomic's response, go; one behind a unit's write answers nobody,
and one behind nothing changes nothing (R190).
DEVICE REGISTERS. A die that does not take a write of its register refuses it, and nothing changes (R25, R30). A die that takes it: a write of FWDCTL
or UNRCH sets its fields and leaves its reserved bits 0; a write of LAUNCH begins a launch, as a later step (log entry 18); a write of a register that is read only or not listed
changes no register and is logged, with code 0x0302 or 0x0301 (R4, R374, R376, R386). No context's register and no memory changes. -/
def Obligations.HostAndRegisters : Prop :=
  ((∀ (off n p d : Nat) (s : State), s.hostDie = some (p, d) → (s.dieAt p d).boot = .ready → (s.dieAt p d).bypassed = false →
      (off + n ≤ 2 ^ 36 → s.hostAddr 2 off n = some ((s.dieAt p d).regs.winbase + off)) ∧
      (2 ^ 36 < off + n → s.hostAddr 2 off n = none) ∧
      (off / 65536 < 10 → n = 8 → off % 8 = 0 → s.hostAddr 0 off n = some (mkPa p (off / 65536) (0xFF0000000000 + off % 65536))) ∧
      (10 ≤ off / 65536 ∨ n ≠ 8 ∨ off % 8 ≠ 0 → s.hostAddr 0 off n = none)) ∧
    (∀ (bar off n p d pa : Nat) (data : List Byte) (s : State), s.hostDie = some (p, d) → s.hostAddr bar off n = some pa →
      0 < n → pa % 128 + n ≤ 128 → paStn pa < 10 → (s.dieAt p d).unreachable p (paPkg pa) (paStn pa) = false →
      (s.route p d (paPkg pa) (paStn pa)).isSome = true → s.host.queue = [] →
      ((s.dieAt p d).src = [] →
        (∃ t, exec (.hostRead bar off n) s = .next t ∧ t.host.queue = [] ∧
          t.todo = s.todo ++ [⟨⟨paPkg pa, paStn pa, 0⟩, 0, .loadreq (hostPacket s p d 1 pa n []) false⟩]) ∧
        (data.length = n → ∃ t, exec (.hostWrite bar off data) s = .next t ∧ t.host.queue = [] ∧
          t.todo = s.todo ++ [⟨⟨paPkg pa, paStn pa, 0⟩, 0, .store (hostPacket s p d 3 pa n data) false⟩])) ∧
      (s.hostWriting ⟨p, d, 0⟩ = true → ∃ t pk, exec (.hostRead bar off n) s = .next t ∧ t.todo = s.todo ∧ t.host.queue = [pk] ∧ pk.typ = 1 ∧
        pk.dest = pa ∧ pk.size = n ∧ pk.id = idHost s.host.nextTag)) ∧
    (∀ (bar off n : Nat) (data : List Byte) (s : State), s.hostAddr bar off n = none → s.host.queue = [] →
      (∃ t, exec (.hostRead bar off n) s = .next t ∧ t.todo = s.todo ∧
        if s.hostWriting s.hostLoc = true then t.host.answers = s.host.answers ∧ t.host.queue.map (·.id) = [idHost s.host.nextTag]
        else t.host.answers = s.host.answers ++ [(s.host.nextTag, 1, [])] ∧ t.host.queue = []) ∧
      (data.length = n → exec (.hostWrite bar off data) s = .next s))) ∧
  ((∀ (k : Nat) (pk : Packet) (s : State), s.host.posted.find? (fun e => e.1 == k) = some (k, pk) → pk.typ = 0 →
      exec (.hostCompletion k) s = .next { s with host := { s.host with posted := s.host.posted.filter fun e => e.1 != k } }) ∧
    (∀ (k : Nat) (pk : Packet) (s : State), s.host.posted.find? (fun e => e.1 == k) = some (k, pk) → (pk.typ = 3 ∨ pk.typ = 4 ∨ pk.typ = 5) → WayBack s pk →
      ∃ t, exec (.hostCompletion k) s = .next t ∧ t.host.posted = s.host.posted.filter (fun e => e.1 != k) ∧ SameRegs s t ∧ SameGlobal s t ∧
        t.todo = s.todo ++ [⟨packetSource pk, pk.sctx,
          if pk.typ = 5 then .atomresp { okAnswer pk pk.data with typ := 6 } else .ack { okAnswer pk pk.data with typ := 10 }⟩]) ∧
    ∀ (k : Nat) (s : State), (∀ e ∈ s.host.posted, e.1 ≠ k) → exec (.hostCompletion k) s = .next s) ∧
  ∀ (s : State), s.focus.pkg < 16 → s.focus.die < 10 →
    let takes (off : Nat) : Prop := s.takesReg s.focus.pkg s.focus.die off = true
    (∀ (off : Nat) (w : Word), ∃ t, exec (.deviceRegisterWrite off w) s = .next t ∧ SameRegs s t ∧ SameSys s t ∧ SameGlobal s t ∧
      (¬ takes off → t = s)) ∧
    ∀ w : Word,
      (takes 0x140 →
        exec (.deviceRegisterWrite 0x140 w) s = .next (s.modDie fun d => { d with regs := { d.regs with fwdctl := w &&& 0x00FFFFFFFFFFF0FF } })) ∧
      (takes 0x158 →
        exec (.deviceRegisterWrite 0x158 w) s = .next (s.modDie fun d => { d with regs := { d.regs with unrch := w &&& 0x00000000FFFF03FF } })) ∧
      (takes 0x100 → s.focus.die ≤ 7 →
        exec (.deviceRegisterWrite 0x100 w) s = .next (s.post ⟨s.focus.pkg, s.focus.die, 0⟩ 0 (.launch w))) ∧
      ∀ (off code : Nat), takes off → (off = 0x130 ∧ code = 0x0302 ∨ off = 0x1F8 ∧ code = 0x0301) →
        ∃ t, exec (.deviceRegisterWrite off w) s = .next t ∧ t.todo = s.todo ∧
          t.die.regs = { s.die.regs with elog := t.die.regs.elog, elogcnt := s.die.regs.elogcnt + 1 } ∧
          (tget (0, 0, 0, 0) t.die.regs.elog (s.die.regs.elogcnt % 64)).1 =
            BitVec.ofNat 64 (code + 42 * 2 ^ 16 + s.focus.die * 2 ^ 32 + s.focus.pkg * 2 ^ 36)

/-! ### Units of a die (R23, R151, R152, R197, R202, R379, R382, R411) -/

namespace Sys2Proof.Claims

/-- The one context of the focus die with work is this one, and its load queue holds one plain load, of `n` bytes at `x`, whose page no TLB of it holds. -/
def Waits (s : State) (l : Loc) (c root va x id ser n : Nat) : Prop :=
  l.pkg = s.focus.pkg ∧ l.die = s.focus.die ∧ l.core < 20 ∧ c < 4 ∧
    (∀ d < 20, ∀ y < 4, (s.ctxAt ⟨s.focus.pkg, s.focus.die, d⟩ y).live = (d == l.core && y == c)) ∧
    (s.ctxAt l c).bind.map (·.root) = some root ∧ (s.ctxAt l c).q.lq = [⟨id, ser, .load x n false, false⟩] ∧ (s.ctxAt l c).q.stq = [] ∧
    (s.ctxAt l c).q.dropped = [] ∧ x < 2 ^ 56 ∧ x / 2 ^ 16 = va / 2 ^ 16 ∧ s.coreHit l root x = none ∧ s.dieHit l root x = none

end Sys2Proof.Claims

/-- TRANSLATION. TLBINV drops the translations that it names from the die's TLB and every core TLB of the die; it is done when no access under an old
translation is left, and the next one queued then begins. A walk that succeeds puts its leaf in the die's TLB, beside what that holds; one that fails puts nothing
there, and leaves nothing behind (R151, R152; log entry 44). A load that waits for the page then goes out to its home, or its entry in the load data queue fails with the
walk's code and the load's address.
PAGE MOVE. A page with no request left to apply is copied to its new place, which its die reaches, and its forward record names that place with V = 1 and HOLD = 0 (R376, R379;
the move is one step of the model, log entry 45).
ROW REPAIR. A failing row takes a spare. Its page, if it is home here, is held before that, with V = 1 and HOLD = 1 in its forward record, until every request that its
home has accepted is applied, and its record ends with V = 0. A row of a bank with no spare left is logged with code 0x0305 (R411; log entry 45).
UNITS. A CXL port that goes down is no longer up and is noted, one that comes up
is up; the power limit is set; a cipher block joins the lookahead of its generator (R23, R197, R382, R411). Memory is unchanged, but for the devices of a
port that comes up, which may have lost their content. Which banks have a spare row, and whether content is lost, is open (log entry 3). -/
def Obligations.UnitEvents : Prop :=
  ((∀ (w : Word) (s : State), s.die.regs.tlbq.head? = some w → ∃ t, exec (.tlbinv w) s = .next t ∧
      t.die.tlb = s.die.tlb.filter (fun e => !invMatches w e) ∧
      (∀ c < 20, (t.coreAt ⟨s.focus.pkg, s.focus.die, c⟩).tlb = (s.coreAt ⟨s.focus.pkg, s.focus.die, c⟩).tlb.filter fun e => !invMatches w e) ∧
      t.die.regs.tlbq = s.die.regs.tlbq ∧ SameRegs s t ∧ SameGlobal s t) ∧
    (∀ (w : Word) (rest : List Word) (s : State), s.die.regs.tlbq = w :: rest →
      (s.die.tlbwait.any (s.translated s.focus.pkg s.focus.die).contains) = false →
      ∃ t, exec .tlbInvalidationComplete s = .next t ∧ t.die.regs.tlbq = rest ∧
        t.todo = s.todo ++ (rest.head?.map fun v => ⟨⟨s.focus.pkg, s.focus.die, 0⟩, 0, .tlbinv v⟩).toList) ∧
    (∀ (root va : Nat) (e : WalkErr) (s : State), s.die.walks = [(root, va / 2 ^ 16)] → s.walk s.focus root va = .error e → e.1 ≠ 0 →
      (∀ c < 20, ∀ x < 4, (s.ctxAt ⟨s.focus.pkg, s.focus.die, c⟩ x).live = false) →
      ∃ t, exec (.pageWalkComplete root va) s = .next t ∧ t.die.walks = [] ∧ SameRegs s t ∧ SameGlobal s t ∧ ∀ x ∈ t.die.tlb, x ∈ s.die.tlb) ∧
    (∀ (root va sz pte : Nat) (s : State), s.die.walks = [(root, va / 2 ^ 16)] → s.walk s.focus root va = .ok (sz, pte) → 16 ≤ sz →
      (∀ c < 20, ∀ x < 4, (s.ctxAt ⟨s.focus.pkg, s.focus.die, c⟩ x).live = false) →
      ∃ t, exec (.pageWalkComplete root va) s = .next t ∧ t.die.walks = [] ∧ SameRegs s t ∧ SameGlobal s t ∧
        (s.die.tlb.length < 16384 → ∀ e, e ∈ t.die.tlb ↔ e ∈ s.die.tlb ∨ e = ⟨root, va / 2 ^ sz, sz, pte, none⟩)) ∧
    ∀ (l : Loc) (c root va x id ser n : Nat) (s : State), Claims.Waits s l c root va x id ser n → s.die.walks = [(root, va / 2 ^ 16)] →
      (∀ (e : WalkErr), s.walk s.focus root va = .error e → e.1 ≠ 0 →
        ∃ t, exec (.pageWalkComplete root va) s = .next t ∧ (t.ctxAt l c).q.lq = [] ∧ t.todo = s.todo ∧ (t.ctxAt l c).q.ldq =
          (s.ctxAt l c).q.ldq.map fun y => if y.id = id then { y with done := true, err := e.1, faddr := x } else y) ∧
      ∀ sz pte : Nat, s.walk s.focus root va = .ok (sz, pte) → 16 ≤ sz → s.die.tlb.length < 16384 → pte.testBit 0 = true → pte.testBit 1 = true →
        let pa := leafPa sz pte x
        let r := s.source l l.core (paPkg pa) (paStn pa)
        paStn pa < 10 → s.die.unreachable l.pkg (paPkg pa) (paStn pa) = false → (s.route l.pkg l.die (paPkg pa) (paStn pa)).isSome = true →
        r.sent = [] → s.canSend l l.core pa = true →
        ∃ t, exec (.pageWalkComplete root va) s = .next t ∧ (t.ctxAt l c).q.lq = [] ∧ (t.ctxAt l c).q.ldq = (s.ctxAt l c).q.ldq ∧
          t.todo = s.todo ++ [⟨⟨paPkg pa, paStn pa, 0⟩, 0, .loadreq { loadPacket l c root x pa pte n (idLoad id) with
            faddr := x, spkg := l.pkg, sstn := l.die, seq := r.seq, own := decide (paPkg pa = l.pkg) && decide (paStn pa = l.die)
            born := Claims.clock s l l.core } false⟩]) ∧
  (∀ (pn new kind at_ : Nat) (s : State), s.memoriesWf → s.recordAt pn = some at_ → s.pageBusy pn = false → (kind = 1 ∨ kind = 2) → s.unitRoute s.focus (new * 2 ^ 16) = 0 →
      s.regionKind (new * 2 ^ 16) = some (kind - 1) → pn < 2 ^ 32 → new < 2 ^ 40 → s.focus.pkg < 16 → s.focus.die < 16 → at_ < 2 ^ 56 →
      let old := mkPa s.focus.pkg s.focus.die (pn * 2 ^ 16)
      (∀ b < 16, ∀ k < 65536, at_ + b ≠ old + k ∧ at_ + b ≠ new * 2 ^ 16 + k) →
      ∃ t, exec (.pageMove pn new kind) s = .next t ∧ leNat (Memory.read (home t at_).store.mem (paOff at_) 8) = pn * 2 ^ 16 + 1 ∧
        leNat (Memory.read (home t at_).store.mem (paOff at_ + 8) 8) = new * 2 ^ 16 + kind ∧ SameRegs s t ∧
        ∀ k < 65536, (home t (new * 2 ^ 16)).store.byte (paOff (new * 2 ^ 16) + k) = (home s old).store.byte (paOff old + k)) ∧
  ((∀ (row : Nat) (s : State),
      (Config.hasSpare s.focus.pkg s.focus.die row s.die.spares = false → ∃ t, exec (.spareRowRepair row) s = .next t ∧ SameGlobal s t ∧ SameRegs s t ∧
        t.die.spares = s.die.spares ∧ t.die.regs.elogcnt = s.die.regs.elogcnt + 1 ∧
        (tget (0, 0, 0, 0) t.die.regs.elog (s.die.regs.elogcnt % 64)).1 =
          BitVec.ofNat 64 (0x0305 + 42 * 2 ^ 16 + s.focus.die * 2 ^ 32 + s.focus.pkg * 2 ^ 36)) ∧
      (Config.hasSpare s.focus.pkg s.focus.die row s.die.spares = true →
        (s.rowHold row = none → ∃ t, exec (.spareRowRepair row) s = .next t ∧ SameGlobal s t ∧ SameRegs s t ∧ t.die.spares = row :: s.die.spares) ∧
        ∀ (at_ : Nat) (held : Bool), s.memoriesWf → s.rowHold row = some (at_, held) → at_ < 2 ^ 56 → s.focus.pkg < 16 → s.focus.die < 10 → row < 2 ^ 48 →
          ∃ t, exec (.spareRowRepair row) s = .next t ∧ SameRegs s t ∧ GlobalOutside s t at_ 16 ∧
            if s.pageBusy (row / 2 ^ 16) = true then t.die.spares = s.die.spares ∧ t.todo = s.todo ++ [⟨s.focus, 0, .spareRowRepair row⟩] ∧
              (held = false → leNat (Memory.read (home t at_).store.mem (paOff at_) 8) = row / 2 ^ 16 * 2 ^ 16 + 3)
            else t.die.spares = row :: s.die.spares ∧ t.todo = s.todo ∧ ∀ k < 16, (home t at_).store.byte (paOff at_ + k) = 0)) ∧
    (∀ (port : Nat) (s : State), port < 8 → 8 ≤ s.focus.die →
      (∃ t, exec (.cxlPortDown port) s = .next t ∧ SameGlobal s t ∧ SameRegs s t ∧ t.die.regs.portDown.testBit port = true ∧
        ∀ i < 8, t.die.regs.portUp.testBit i = (s.die.regs.portUp.testBit i && i != port)) ∧
      ∃ t, exec (.cxlPortUp port) s = .next t ∧ SameRegs s t ∧ t.die.regs.portDown = s.die.regs.portDown ∧
        (s.free (2 ^ 58 + port) 1 = 0 → SameGlobal s t) ∧ t.host = s.host ∧
        (∀ p d a, (dieKey p d = dieKey s.focus.pkg s.focus.die → a < port * 2 ^ 41 ∨ (port + 1) * 2 ^ 41 ≤ a) →
          (t.dieAt p d).store.byte a = (s.dieAt p d).store.byte a) ∧
        ∀ i, t.die.regs.portUp.testBit i = (s.die.regs.portUp.testBit i || i == port)) ∧
    (∀ (num den : Nat) (s : State), 0 < num → num ≤ den → ∃ t, exec (.powerLimitReport num den) s = .next t ∧ t.die.limit = (num, den) ∧
      SameGlobal s t ∧ SameRegs s t) ∧
    ∀ (g : Nat) (k : BitVec 256) (c : BitVec 128) (s : State), s.die.key (s.gen g).slot = some k → (s.gen g).missing = some c →
      ∃ t, exec (.cipherBlockReady g) s = .next t ∧ (t.gen g).ctr = (s.gen g).ctr ∧ (t.gen g).slot = (s.gen g).slot ∧
        (t.gen g).look = (s.gen g).look ++ [((s.gen g).slot, c, cipherBlock k c)] ∧ SameGlobal s t ∧
        ∀ r, r ≠ .gen g → t.ctx.regs.get r = s.ctx.regs.get r)

/-- SEQUENCE OPERATIONS. The operation at the head of a unit's queue that ends with a result word gives it to s[D] of the context that waits for it,
whose next bundle may then issue. A stale ticket writes nothing and has status 1; SQCUR moves the prefix within the generated tokens;
SQAPP of the main sequence appends its token (R202, R203). -/
def Obligations.SequenceOperations : Prop :=
  (∀ (u : UnitReq) (rest : List UnitReq) (op c d desc : Nat) (x y v : Word) (w : Wait) (s s' : State), s.die.seqOut = none → s.die.seqq = u :: rest →
    u.eff = .seqop op c d desc x y → s.seqRun u op c desc x y = (s', .done v) → s'.hostOut (s.host.nextTag, s'.host.nextTag) = false → s'.focus = s.focus → (s'.ctxAt u.l u.c).pipe.waits 4 = some w →
    w.ser = u.ser →
    ∃ t, exec .sequenceUnitOperation s = .next t ∧ t.die.seqq = rest ∧
      (t.ctxAt u.l u.c).pipe.wait = (s'.ctxAt u.l u.c).pipe.wait.filter (fun w => w.eff.kind != 4) ∧
      (0 < d → tget 0 (t.ctxAt u.l u.c).regs.s d = v) ∧ ∀ r, (r ≠ .s d ∨ d = 0) → (t.ctxAt u.l u.c).regs.get r = (s'.ctxAt u.l u.c).regs.get r) ∧
  ∀ (s : State) (u : UnitReq) (q : SeqDesc) (c : Nat) (x y : Word),
    (∀ op ≤ 2, ¬ (x.toNat / 2 ^ 32 = q.epoch ∧ x.toNat % 2 ^ 30 = q.g % 2 ^ 30) → s.seqPlan u q op c x y = (s, .done ⟨[], q, 0, 1, []⟩)) ∧
    (q.p + x.toNat ≤ q.g → s.seqPlan u q 4 c x y = (s, .done ⟨[], { q with p := q.p + x.toNat }, 0, 0, []⟩)) ∧
    (x.toNat / 2 ^ 32 = q.epoch → x.toNat % 2 ^ 30 = q.g % 2 ^ 30 → q.g < 256 * q.pgtok → s.seqPlan u q 1 16 x y =
      (s, .done ⟨[(q.toks + 4 * q.g, leBytes 4 (y.toNat % 2 ^ 32), false)], { q with g := q.g + 1, chmask := 0 }, 0, 0, []⟩))

/-! ### Mailbox, boot, reset (R24 to R37) -/

namespace Sys2Proof.Claims

/-- A mailbox command is in progress with this number, about a clean request block with reserved bytes 0 and no flag, in a die that forwards no page. -/
def Mailing (s : State) (cmd : Nat) (b : List Byte) : Prop :=
  let blk := wbits s.die.regs.mbxreq 55 10 * 1024
  s.die.regs.mailing cmd = true ∧ paPkg blk = s.focus.pkg ∧ paStn blk = s.focus.die ∧ s.focus.die ≤ 7 ∧ Clean s true blk 1024 ∧ s.die.regs.mw = [] ∧
    s.die.unreachable s.focus.pkg s.focus.pkg s.focus.die = false ∧ s.die.bypassed = false ∧ b = bytesAt s blk 1024 ∧ mailOk b = true ∧
    leNat (b.take 8) % 2 ^ 56 = 0 ∧ s.die.mailOut = none ∧ s.die.restarting = false ∧ s.die.queued = [] ∧ wbits s.die.regs.fwdctl 7 0 = 0

end Sys2Proof.Claims

/-- THE MAILBOX. A command about a request block that may be read and written ends: BUSY is 0, DONE counts it, its result stands in MBXSTAT and in byte 17
of the block. QUOTE ends with result 0. CLEAR_KEY_SLOT empties its slot. LOAD_KEY_SLOT fills its slot with result 0, or with result 3
leaves every slot as it was; other slots never change (R32 to R35; the layout of a key record is the model's, log entry 11). -/
def Obligations.MailboxCommands : Prop :=
  ∀ (s : State) (b : List Byte) (cmd : Nat), s.memoriesWf → Calm s → Mailing s cmd b →
    let blk := wbits s.die.regs.mbxreq 55 10 * 1024
    let slot := (nth 0 b 16).toNat
    let ends (t : State) : Prop := t.die.regs.mbxbusy = false ∧ t.die.regs.mbxdone = s.die.regs.mbxdone + 1 ∧
      t.die.store.byte (paOff blk + 17) = BitVec.ofNat 8 t.die.regs.mbxres ∧ SameRegs s t
    (cmd = 1 → s.die.imgHash.length ≤ 48 → ∃ t, exec .quote s = .next t ∧ ends t ∧ t.die.regs.mbxres = 0 ∧ t.die.keys = s.die.keys) ∧
    (cmd = 2 → slot ≤ 15 → ∃ t, exec .loadKeySlot s = .next t ∧ ends t ∧ (t.die.regs.mbxres = 0 ∨ t.die.regs.mbxres = 3 ∧ t.die.keys = s.die.keys) ∧
      (t.die.regs.mbxres = 0 → (t.die.key slot).isSome = true) ∧ ∀ n, n ≠ slot → t.die.key n = s.die.key n) ∧
    (cmd = 3 → slot ≤ 15 → ∃ t, exec .clearKeySlot s = .next t ∧ ends t ∧ t.die.regs.mbxres = 0 ∧ t.die.key slot = none ∧
      ∀ n, n ≠ slot → t.die.key n = s.die.key n)

/-- BOOT. At power-on every die of the package that has not booted ends READY, stopped, or waiting for an image of the host port, by its records and its image
(R24 to R27); an image that the bridge of the die's own record delivers and that verifies makes a waiting die READY, and one that does not, or a
BOOTLEN that stays 0, stops it.
RESET_ASSERT. A package that is reset has no die, core or region left of before, its key slots are empty, its second tier lists nothing, and the other packages keep their cores and
dies (R37). How a record or an image lays out its key, body and signature is open (log entry 11), that a boot is one step and a bad source fails it is the model's (log
entry 47), and so is what memory holds after a reset (log entry 64). -/
def Obligations.BootAndReset : Prop :=
  ((∀ (s : State) (d : Nat), d < 10 → (s.dieAt s.focus.pkg d).boot = .off → ∃ t, exec .powerOn s = .next t ∧
      let f := s.flashOf s.focus.pkg
      let src := match f.deploy with | some g => nth 0 g.fields 0 | none => 0
      (t.dieAt s.focus.pkg d).boot =
        if deviceOk f && deployOk f then
          (if src = 0 then (match f.image with
            | some g => if signedOk g.key g.body (g.r, g.s) Config.rootKeyHash then .ready else .failed
            | none => .failed)
          else if src = 1 then .awaitImage else .failed)
        else .failed) ∧
    ∀ (s : State) (p d : Nat), s.die.boot = .awaitImage → s.die.hostPort = some (p, d) → (s.dieAt p d).boot ≠ .failed →
      (s.isHostDie p d = true → ((s.dieAt p d).boot = .awaitImage ∨ (s.dieAt p d).boot = .ready) → (s.dieAt p d).bypassed = false →
        (s.route s.focus.pkg s.focus.die p d).isSome = true → s.imageLen = (s.dieAt p d).regs.bootlen) ∧
      (s.imageLen = 0 →
        (∃ t, exec .bootImageTimeout s = .next t ∧ t.die.boot = .failed) ∧
        exec .bootImageFetch s = .next (s.post s.focus 0 .bootImageFetch)) ∧
      (s.imageLen ≠ 0 → ∃ t, exec .bootImageFetch s = .next t ∧
        let b := Memory.read (s.dieAt p d).bootwin 0 (min s.imageLen (2 ^ 24))
        t.die.boot = if signedOk (Config.imageKey b) (Config.imageBody b) (Config.imageSig b) Config.rootKeyHash then .ready else .failed)) ∧
  (∀ s : State, s.focus.pkg < 16 → ∃ t, exec .resetAssert s = .next t ∧
      (∀ d < 16, t.dieAt s.focus.pkg d = Die.reset) ∧ (∀ d < 16, ∀ c < 32, t.coreAt ⟨s.focus.pkg, d, c⟩ = Core.reset) ∧
      (∀ r ∈ t.regions, paPkg r.blk ≠ s.focus.pkg) ∧ t.flash = s.flash ∧
      (∀ p d, p < 16 → d < 16 → p ≠ s.focus.pkg → t.dieAt p d = s.dieAt p d) ∧
      ∀ p d c, p < 16 → d < 16 → c < 32 → p ≠ s.focus.pkg → t.coreAt ⟨p, d, c⟩ = s.coreAt ⟨p, d, c⟩)

/-! ### Service (R406 to R413) -/

namespace Sys2Proof.Claims

/-- From a state to `t` a service command of the focus die has ended with a result. -/
def Ended (t : State) (res : Nat) : Prop := t.die.regs.svcbusy = false ∧ t.die.regs.svcres = res

end Sys2Proof.Claims

/-- CORES IN AND OUT OF SERVICE. RETIRE_CORE narrows every leaf group on its core, tells gang members there to stop, and waits for the core to be free; once no context of the core is bound the core is
held in reset, RETIRED names it and the command ends with result 0; RESTORE_CORE brings a core that the device record enables back from
reset (R407).
DIES IN AND OUT OF SERVICE. DRAIN_DIE stops binding and waits; once no context is bound the die is DRAINED and the command ends; UNDRAIN_DIE undoes it.
BYPASS_DIE, and a die that four heartbeats have missed, lose the die: every other die of the package names it unreachable and its cores
stop. A drained die takes a firmware image that verifies, restarts its management processor, and ends the command once that runs; an image that does not
verify, or cannot be read, ends it with result 3 (R408 to R410). What answers a heartbeat, that DRAIN_DIE is busy until the die is drained, that
the cores of a bypassed die stop, and what an unreadable image does are the model's readings (log entry 49).
DUMPS. A dump of a compute die writes the header "DMP3" at the die's own slot above HBMTOP, stops the die's cores and sets DUMPED; CLEAR_FOREIGN_DUMP_SLOT
writes zeros to the header of the foreign slot (R412, R413). How an image lays out its parts is open (log entry 11). -/
def Obligations.ServiceCommands : Prop :=
  ((∀ (w : Word) (s : State), s.serving w 1 = true → wbits w 7 0 < 20 → s.focus.die < 8 → wbits w 55 8 = 0 →
      let l : Loc := ⟨s.focus.pkg, s.focus.die, wbits w 7 0⟩
      ∃ t, exec (.retireCore w) s = .next t ∧ t.todo = s.todo ++ [⟨s.focus, 0, .coreRetired (wbits w 7 0)⟩] ∧
        (∀ r ∈ t.regions, r.kind = 2 → paPkg r.blk = s.focus.pkg → ∀ g ∈ r.groups, g.l = l → g.narrowed = true) ∧
        ∀ r ∈ s.regions, r.kind = 3 → paPkg r.blk = s.focus.pkg → ∀ x ∈ s.ctxsOf r, x.1 = l → 2 ≤ (t.ctxAt x.1 x.2).stopping) ∧
    (∀ (c : Nat) (s : State), s.die.retiring = some c → c < 20 → (∀ x < 4, (s.ctxAt ⟨s.focus.pkg, s.focus.die, c⟩ x).bind = none) →
      ∃ t, exec (.coreRetired c) s = .next t ∧ Ended t 0 ∧ t.coreAt ⟨s.focus.pkg, s.focus.die, c⟩ = Core.reset ∧ t.die.regs.retired.testBit c = true) ∧
    ∀ (w : Word) (s : State), s.serving w 2 = true → wbits w 7 0 < 20 → s.focus.die < 8 → wbits w 55 8 = 0 →
      (enabledMask (s.flashOf s.focus.pkg) s.focus.die).testBit (wbits w 7 0) = true → s.die.regs.retired.testBit (wbits w 7 0) = true →
      ∃ t, exec (.restoreCore w) s = .next t ∧ Ended t 0 ∧ t.coreAt ⟨s.focus.pkg, s.focus.die, wbits w 7 0⟩ = { Core.reset with on := true } ∧
        t.die.regs.retired.testBit (wbits w 7 0) = false) ∧
  ((∀ (w : Word) (s : State), s.serving w 3 = true → wbits w 55 0 = 0 → (∀ r ∈ s.regions, r.kind ≠ 3) →
      ∃ t, exec (.drainDie w) s = .next t ∧ t.die.draining = true ∧ t.todo = s.todo ++ [⟨s.focus, 0, .dieDrained⟩]) ∧
    (∀ s : State, s.die.draining = true → s.dieFree = true →
      ∃ t, exec .dieDrained s = .next t ∧ t.die.regs.drained = true ∧ (s.serving s.die.regs.svccmd 3 = true → Ended t 0)) ∧
    (∀ (w : Word) (s : State), s.serving w 4 = true → wbits w 55 0 = 0 →
      ∃ t, exec (.undrainDie w) s = .next t ∧ Ended t 0 ∧ t.die.draining = false ∧ t.die.regs.drained = false) ∧
    (∀ (i : Instr) (s : State), ((∃ w, i = .bypassDie w ∧ s.serving w 5 = true ∧ wbits w 55 0 = 0) ∨ i = .heartbeatTimeout ∧ s.die.missed = 4) →
      s.die.bypassed = false → s.regions = [] → s.die.seqq = [] → s.die.seqOut = none → s.focus.die < 10 →
      ∃ t, exec i s = .next t ∧ t.die.bypassed = true ∧
        (∀ e < 10, e ≠ s.focus.die → (t.dieAt s.focus.pkg e).regs.unrch.getLsbD s.focus.die = true) ∧
        ∀ c < 20, (t.coreAt ⟨s.focus.pkg, s.focus.die, c⟩).on = false) ∧
    (∀ s : State, ∃ t, exec .heartbeat s = .next t ∧ SameGlobal s t ∧
      t.die.missed = if s.die.boot = .ready ∧ s.die.bypassed = false then 0 else min 4 (s.die.missed + 1)) ∧
    (∀ (w : Word) (s : State), s.serving w 6 = true → s.die.restarting = true →
      ∃ t, exec (.updateFirmware w) s = .next t ∧ Ended t 0 ∧ t.die.restarting = false ∧ t.die.fw = s.die.fw) ∧
    ∀ (w : Word) (s u : State), s.serving w 6 = true → s.die.restarting = false → wbits w 7 0 = 0 → s.die.regs.drained = true →
      let pa := wbits w 55 8 * 256
      paPkg pa = s.focus.pkg → s.regionKind pa = some 0 → u.focus = s.focus →
      (s.readImage pa = (u, none) → ∃ t, exec (.updateFirmware w) s = .next t ∧ Ended t 3 ∧ t.die.fw = u.die.fw) ∧
      ∀ b, s.readImage pa = (u, some b) → ∃ t, exec (.updateFirmware w) s = .next t ∧
        if signedOk (Config.imageKey b) (Config.imageBody b) (Config.imageSig b) Config.rootKeyHash then
          t.die.restarting = true ∧ t.die.fw = Config.imageVersion (Config.imageBody b) ∧ t.todo = u.todo ++ [⟨u.focus, 0, .updateFirmware w⟩] ∧
            t.die.regs = u.die.regs
        else Ended t 3 ∧ t.die.fw = u.die.fw) ∧
  ((∀ (i : Instr) (s : State), s.memoriesWf → ((∃ w, i = .dump w ∧ s.serving w 7 = true ∧ wbits w 55 0 = 0) ∨ ∃ c, i = .fatalDump c) → s.focus.die ≤ 7 → s.die.bypassed = false →
      s.focus.pkg < 16 → s.die.hbmTop + 0xA000000 ≤ 2 ^ 48 →
      ∃ t, exec i s = .next t ∧ t.die.regs.dumped = true ∧ (∀ c < 20, (t.coreAt ⟨s.focus.pkg, s.focus.die, c⟩).on = false) ∧
        (List.range 6).map (fun k => t.die.store.byte (s.die.hbmTop + k)) = [0x44, 0x4D, 0x50, 0x33, BitVec.ofNat 8 s.focus.pkg, BitVec.ofNat 8 s.focus.die]) ∧
    ∀ (w : Word) (s : State), s.memoriesWf → s.serving w 8 = true → wbits w 55 0 = 0 → s.focus.die ≤ 7 → s.focus.pkg < 16 → s.die.hbmTop + 0x20000000 ≤ 2 ^ 48 →
      ∃ t, exec (.clearForeignDumpSlot w) s = .next t ∧ Ended t 0 ∧ ∀ k < 4096, t.die.store.byte (s.die.hbmTop + 0x10000000 + k) = 0)

/-! ### Regions (R38 to R56, R359, R360, R390) -/

/-- REGION COMMANDS. LAUNCH of a tree of one valid region makes that region known in state WAITING and its root live; a die that is not READY takes none; SUSPEND of a region with a save pool that is
WAITING or RUNNING begins its suspension, and its contexts are to stop; RESUME of a SUSPENDED region makes it WAITING with its DIEMASK read
anew, or DRAINING for an inner region whose children have all drained or ended (R30, R41, R42, R52, R54). -/
def Obligations.RegionCommands : Prop :=
  (∀ (w : Word) (s u : State) (b : List Byte),
    let l : Loc := ⟨s.focus.pkg, s.focus.die, 0⟩
    let root := wbits w 55 8 * 256
    let r := u.parseBlock root b none (dieKey l.pkg l.die) l.die root u.nextTree
    s.die.boot = .ready → s.die.roots = [] → s.unitRead l 44 root 256 = (u, .ok b) → u.blockOk b r none l.die = true → fieldOf b 8 8 = 0 →
    ∃ t, exec (.launch w) s = .next t ∧ t.region? root = some { r with state := 1 } ∧ t.die.roots = [root] ∧ SameRegs s t) ∧
  (∀ (w : Word) (s : State), s.die.boot ≠ .ready → exec (.launch w) s = .next s) ∧
  (∀ (w : Word) (s : State) (r : Region), s.region? (wbits w 55 8 * 256) = some r → r.launch = dieKey s.focus.pkg s.focus.die →
    s.below r.blk = [r] → r.saveptr ≠ 0 → (r.state = 1 ∨ r.state = 2) → r.suspending = false →
    ∃ t, exec (.suspend w) s = .next t ∧ t.region? r.blk = some { r with suspending := true, era := r.era + 1 } ∧ SameRegs s t ∧
      ∀ x ∈ s.ctxsOf r, 1 ≤ (t.ctxAt x.1 x.2).stopping) ∧
  ∀ (w : Word) (s u : State) (r : Region) (b : List Byte), s.region? (wbits w 55 8 * 256) = some r → r.launch = dieKey s.focus.pkg s.focus.die →
    s.below r.blk = [r] → r.state = 6 → r.parent ≠ r.blk → s.unitRead r.homeLoc 44 r.blk 256 = (u, .ok b) → fieldOf b 30 1 ≠ 0 →
    ∃ t q, exec (.resume w) s = .next t ∧ t.region? r.blk = some q ∧
      q.state = (if r.kind = 1 ∧ (s.kids r).all (fun k => k.state == 3 || k.final) = true then 3 else 1) ∧ q.diemask = fieldOf b 30 1 ∧ q.resumeHeld = false ∧
      q.saved = r.saved ∧ SameRegs s t

/-- PLACEMENT AND DEALS. The scheduler of a die that chooses a leaf binds a core group of it on the first free core (which of several free cores is the model's choice, log entry 73): each context starts at the entry of SEGPTR with
registers 0 but s1 = ARGPTR, s2 = the block and s3 = the member (R44, R49). The dealer answers a DEAL with the next tasks of the leaf (R48). A
swap starts the next region's task, with registers of 0 where PTROOT differs and undefined values else (R50; free values, log entry 3); a preload fills the idle half (R51); contexts that have
arrived at their barrier go on, and no other does (R56). -/
def Obligations.PlacementEvents : Prop :=
  (∀ (s : State) (r : Region) (l : Loc), s.rerunFails s.focus.pkg s.focus.die = none → s.rerunDue s.focus.pkg s.focus.die = none → s.binds s.focus.pkg s.focus.die = true →
    s.choose s.focus.pkg s.focus.die ((s.seekers s.focus.pkg s.focus.die).filter (s.placeable s.focus.die)) = some r → r.kind = 2 →
    s.region? r.blk = some r → (s.offers r s.focus.die).head? = some l →
    (∀ c < r.ctxpc, ∀ k ∈ (s.ctxAt l c).q.cmds, k.kind ≠ 4) →
    ∃ t q, exec .bindCoreGroup s = .next t ∧ t.region? r.blk = some q ∧ q.state = 2 ∧ q.groups = r.groups ++ [Group.new l 0 r.ctxpc] ∧
      ∀ c < r.ctxpc, (t.ctxAt l c).bind = some (r.bindOf 0) ∧ (t.ctxAt l c).ctl.seg = r.segptr ∧ (t.ctxAt l c).ctl.entry = true ∧
        (t.ctxAt l c).regs = ((Regs.reset.put (.s 1) (.bits r.argptr)).put (.s 2) (.bits r.blk)).put (.s 3) (.bits 0)) ∧
  (∀ (s : State) (u : UnitReq) (d : Nat) (w : Wait) (b : Bind) (r : Region) (g : Group), s.die.dealq = [u] → u.eff = .deal d → 0 < d →
    (s.ctxAt u.l u.c).pipe.waits 1 = some w → w.ser = u.ser → (s.ctxAt u.l u.c).bind = some b → b.again = false → s.region? b.blk = some r →
    r.shared = false → r.kind = 2 → r.groupAt u.l = some g → g.narrowed = false → r.waitsSaved = false → r.state ≠ 5 → r.next < r.ntask →
    let k := max 1 r.groups.length
    let n := min (min (max r.minch ((r.ntask - r.next + 2 * k - 1) / (2 * k))) r.maxch) (r.ntask - r.next)
    ∃ t q, exec .dealerRequest s = .next t ∧ t.die.dealq = [] ∧ t.region? b.blk = some q ∧ q.next = r.next + n ∧
      (t.ctxAt u.l u.c).pipe.waits 1 = none ∧ tget 0 (t.ctxAt u.l u.c).regs.s d = BitVec.ofNat 64 r.next ∧
      tget 0 (t.ctxAt u.l u.c).regs.s (d + 1) = BitVec.ofNat 64 n) ∧
  (∀ (s : State) (b : Bind), s.ctx.bind = some b → s.ctx.swapReady = true →
    let arg := match s.region? b.blk with | some r => r.argptr | none => 0
    ∃ t, exec .overlaySwap s = .next t ∧ t.ctx.bind = some { b with swap := 0 } ∧ t.ctx.ctl.seg = b.segptr ∧ t.ctx.ctl.entry = true ∧ t.ctx.half = none ∧
      t.ctx.regs = (((if b.swap = 2 then s.ctx.q.zeroRegs else s.freeRegs).put (.s 1) (.bits arg)).put (.s 2) (.bits b.blk)).put (.s 3) (.bits b.member)) ∧
  (∀ (blk : Nat) (s u : State) (r : Region) (g : Seg), s.region? blk = some r → s.lastTask = true → r.plgrp.testBit 7 = false → s.ctx.preBank = none →
    s.fetchSeg s.focus s.sub r.ptroot r.segptr = (u, .got g) → u.focus = s.focus → u.sub = s.sub →
    ∃ t, exec (.preload blk) s = .next t ∧ t.ctx.idle = some g ∧ t.ctx.pre = some blk ∧ t.ctx.regs = u.ctx.regs) ∧
  ∀ (blk : Nat) (s : State) (r : Region), s.region? blk = some r → s.arrivals r ≠ [] →
    ∃ t, exec (.gangBarrierComplete blk) s = .next t ∧ (∀ x ∈ s.arrivals r, (t.ctxAt x.1 x.2).pipe.waits 2 = none) ∧ SameRegs s t ∧
      ∀ l c, (∀ x ∈ s.arrivals r, ¬ (locKey x.1 = locKey l ∧ x.2 = c)) → t.ctxAt l c = s.ctxAt l c

/-- ENDS OF REGIONS. A region whose tasks have ended and whose operations have completed, without a flag, becomes DONE; one that has failed becomes
FAULTED, is notified and lets its contexts go, with its saved contexts given up. Either notes the writes of host memory that its flag and block
have left there, which its parent waits for. A root's cycles are charged to it, and with its budget used up it is FAULTED (R43, R46, R360, R390). -/
def Obligations.RegionEnds : Prop :=
  (∀ (blk : Nat) (s : State) (r : Region), s.region? blk = some r → s.completeReady r = true → r.cflag = 0 →
    ∃ t n, exec (.regionComplete blk) s = .next t ∧ t.region? blk = some { r with state := 4, flagOut := (s.host.nextTag, n) } ∧ SameRegs s t) ∧
  (∀ (blk : Nat) (s : State) (r : Region), s.region? blk = some r → s.notifyReady r = true → r.cflag = 0 → (∀ x ∈ s.owed, x.blk ≠ blk) →
    (∀ g ∈ r.groups, ∀ c < g.size, (s.ctxAt g.l c).pre = none) →
    ∃ t n, exec (.regionFaultNotify blk) s = .next t ∧
      t.region? blk = some (if r.state = 5 then { r with groups := [], flagged := true, flagOut := (s.host.nextTag, n) }
        else { r with state := 5, groups := [], saved := [], suspending := false, resumeHeld := false, rerun := false, flagged := true
                      flagOut := (s.host.nextTag, n) }) ∧
      ∀ x ∈ s.ctxsOf r, (t.ctxAt x.1 x.2).bind = none) ∧
  ∀ (blk n : Nat) (s : State) (r : Region), s.core.charge = [(blk, n)] → s.region? blk = some r → r.parent = 0 →
    ∃ t q, exec .cycleChargeReport s = .next t ∧ t.core.charge = [] ∧ t.region? blk = some q ∧ q.used = r.used + n ∧
      (r.used + n < r.bcycles → q.state = r.state) ∧ (r.bcycles ≤ r.used + n → r.state ≠ 4 → q.state = 5)

namespace Sys2Proof.Claims

/-- The region once a saved context of it is placed on a core. -/
def placedOn (l : Loc) (v : Saved) (r : Region) : Region :=
  Region.endNarrowing { r with
    saved := r.saved.filter fun x => !([v].any fun y => y.slot == x.slot)
    groups := r.groups ++ [{ v.group with l := l, narrowed := false, cause := 0 }] }
/-- A saved context of a region is placed on a core, where no task of the hardware context has operations left. -/
def placing (s : State) (blk : Nat) (l : Loc) (v : Saved) : State :=
  let t := s.modRegion blk (placedOn l v)
  { t with regions := t.regions.map fun r => { r with pend := r.pend.filter fun e => e.1 != l || e.2.1 != v.c } }

end Sys2Proof.Claims

/-- SAVING AND RESTORING. The last context of a leaf under suspension is saved with its state in the first free slot of the pool (which slot is a reading, log entry 31), its hardware context is free, and the leaf is SUSPENDED
(R53). A saved context that is placed gets its registers, timeline counters and the data of its queues back from its save slot, goes on at the restart address that stands there, and has the rest of its state
as it was saved (R54; the part of the slot that the spec calls private is laid out by the model, log entry 11). -/
def Obligations.SaveAndRestore : Prop :=
  (∀ (s : State) (r : Region) (x : Loc × Nat), s.regions.find? s.saveReady = some r → s.region? r.blk = some r → r.kind = 2 → s.saveNext r = [x] →
    s.openCtxs r = [x] → r.resumeHeld = false → (s.coreAt x.1).errs = [] → (s.ctxAt x.1 x.2).mchk = none →
    ∃ t q, exec .contextSave s = .next t ∧ (t.ctxAt x.1 x.2).bind = none ∧ t.region? r.blk = some q ∧ q.state = 6 ∧ q.suspending = false ∧
      q.saved = r.saved ++ [⟨r.freeSlot, r.era, x.2, r.groupOf x.1, s.ctxAt x.1 x.2, State.resumeVa { s with focus := x.1, sub := x.2 }, false⟩]) ∧
  ∀ (blk : Nat) (s u : State) (r : Region) (l : Loc) (v : Saved) (b : List (List Byte)), s.region? blk = some r → s.restorePlan r = some [(l, [v])] →
    v.fresh = false →
    (placing s blk l v).readSlot ⟨l.pkg, l.die, 0⟩ (r.saveptr + v.slot * slotSize r.savemask) (slotSections r.savemask) = (u, .ok b) →
    ∃ t, exec (.contextRestore blk) s = .next t ∧ (t.ctxAt l v.c).regs = v.ctx.regs.restored b ∧ (t.ctxAt l v.c).bind = v.ctx.bind ∧
      (t.ctxAt l v.c).ctl = v.ctx.ctl.resumeAt v.resume (fieldOf (nth [] b 2) 0 8) ∧ (t.ctxAt l v.c).sys = v.ctx.sys ∧ (t.ctxAt l v.c).stopping = 0 ∧
      (t.ctxAt l v.c).q.tl = (v.ctx.q.restored b).tl ∧ (t.ctxAt l v.c).q.ldq = (v.ctx.q.restored b).ldq ∧
      (t.ctxAt l v.c).q.gdq = (v.ctx.q.restored b).gdq ∧ (r.state ≠ 1 → (t.ctxAt l v.c).q = v.ctx.q.restored b)

/-! ### The pipeline (R60, R71, R78, R80 to R82, R140, R157) -/

namespace Sys2Proof.Claims

/-- A request as it leaves the focus die: with its source, the next SEQ to its station, and the cycle of its sending. -/
def leaving (s : State) (pk : Packet) : Packet :=
  { pk with
    spkg := s.focus.pkg, sstn := s.focus.die, rc := false, seq := (s.source s.focus pk.agent (paPkg pk.dest) (paStn pk.dest)).seq
    own := decide (paPkg pk.dest = s.focus.pkg) && decide (paStn pk.dest = s.focus.die), born := clock s s.focus pk.agent }
/-- Its arrival at its station, in flight. -/
def arrival (s : State) (pk : Packet) : Todo := ⟨⟨paPkg pk.dest, paStn pk.dest, 0⟩, 0, packetArrive (leaving s pk)⟩
/-- A station that the focus die reaches, with nothing of the agent out to it, and nothing redirected to the page (R181, R378, R386). -/
def Reaches (s : State) (agent pa : Nat) : Prop :=
  paStn pa < 10 ∧ s.die.unreachable s.focus.pkg (paPkg pa) (paStn pa) = false ∧ (s.route s.focus.pkg s.focus.die (paPkg pa) (paStn pa)).isSome = true ∧
    (s.source s.focus agent (paPkg pa) (paStn pa)).sent = [] ∧ s.canSend s.focus agent pa = true
/-- The TLBs translate an address with a permission. -/
def Maps (s : State) (root va need pa pte : Nat) : Prop := s.lookup s.focus root (va % 2 ^ 56) = .ok pa pte ∧ permOk pte need = true

end Sys2Proof.Claims

/-- CONFIRMATION AND RELEASE. The oldest checkpoint that is due confirms: it becomes the restart point, undo entries up to it are freed, and no register
changes; a withheld CBADV.W up to it then moves WP (R80 to R82, R140). The store at the head of the store queue, with a translation that permits it,
leaves for its home (R157). -/
def Obligations.ConfirmationAndStores : Prop :=
  (∀ (s : State) (k : Ckpt), s.ctx.confirmDue s.cyc = some k →
    (s.ctx.pipe.held = [] → ∃ t, exec .checkpointConfirm s = .next t ∧ t.ctx.pipe.restart = k ∧
      t.ctx.pipe.undo = s.ctx.pipe.undo.filter (fun u => decide (k.ser < u.ser)) ∧ t.ctx.pipe.cks = s.ctx.pipe.cks.filter (fun x => x.ser != k.ser) ∧
      (∀ r, t.ctx.regs.get r = s.ctx.regs.get r) ∧ SameSys s t ∧ SameSpad s t ∧ SameAccm s t ∧ SameGlobal s t) ∧
    ∀ h b n, s.ctx.pipe.held = [h] → h.eff = .cbadv b n → h.ser ≤ k.ser → (s.cb b).eng = false →
      ∃ t, exec .checkpointConfirm s = .next t ∧ t.ctx.pipe.held = [] ∧ (t.cb b).wp = ((s.cb b).wp + n) % 2 ^ 32 ∧
        (t.cb b).pendW = (s.cb b).pendW - n ∧ (t.cb b).rp = (s.cb b).rp) ∧
  ∀ (s : State) (e : StEnt) (va pa pte : Nat) (data : List Byte) (sc : Option Nat), s.storeReady = some e → e.eff = .store va data sc →
    Maps s e.root va 1 pa pte → Reaches s s.focus.core pa → s.ctx.pipe.held = [] → s.ctx.q.lq = [] →
    ∃ t, exec .storeQueueSend s = .next t ∧ SameRegs s t ∧ SameGlobal s t ∧
      (∀ x ∈ t.ctx.q.stq, x.id = e.id → x.lane = e.lane → x.sent = true) ∧
      t.todo = s.todo ++ [arrival s (underLeaf { blankPacket with
        typ := 3, size := data.length, dest := pa, agent := s.focus.core, sctx := s.sub, id := idStore e.id e.lane, data := data } e.root va pte)]

/-- ISSUE. A core with no bundle under way goes on with another context that is ready, in two cycles unless that context is the first, or goes on
after giving issue up (R60). A segment that has been fetched stands in the idle half (R77, R78). A kernel cycle of a modulo loop latches the union of its rows and, every
II cycles and once for each, turns the rotation base (R71, R73, R366). -/
def Obligations.IssueEvents : Prop :=
  (∀ s : State, (∀ c, s.core.cur = some c → (s.core.ctx c).latch = []) → s.core.switch = 0 → s.core.cur ≠ some s.sub → s.seemsReady = true →
    ∃ t, exec .contextSwitch s = .next t ∧ t.core.cur = some s.sub ∧ SameRegs s t ∧ SameGlobal s t ∧
      t.core.switch = if s.core.last = none ∨ s.core.cur = none ∧ s.core.last = some s.sub then 0 else 2) ∧
  (∀ (s u : State) (va : Nat) (pre : Bool) (g : Seg), s.ctx.fetch = some (va, pre) → s.fetchSeg s.focus s.sub s.root va = (u, .got g) →
    u.focus = s.focus → u.sub = s.sub →
    ∃ t, exec (if pre then .segmentPrefetchComplete else .segmentFetchComplete) s = .next t ∧ t.ctx.idle = some g ∧ t.ctx.fetch = none ∧
      t.ctx.half = u.ctx.half ∧ t.ctx.regs = u.ctx.regs) ∧
  ∀ (s : State) (k : Nat) (g : Seg), s.ctx.ctl.kern = some k → s.ctx.latch = [] → s.ctx.half = some g → s.ctx.sys.watch = [] →
    kernelSlots g (s.lvl 0) k ≠ [] →
    ∃ t, exec .moduloKernelCycle s = .next t ∧ t.ctx.latch = kernelSlots g (s.lvl 0) k ∧ SameSys s t ∧ SameSpad s t ∧ SameGlobal s t ∧
      ((s.lvl 0).strides = [] → s.ctx.pipe.undo.length < 256 → t.ctx.regs.base =
        if k % (s.lvl 0).ii = 0 ∧ s.ctx.ctl.begun = false then (s.ctx.regs.base + 991) % 992 else s.ctx.regs.base)

/-! ### The cell array (R113 to R131, R282 to R290) -/

/-- THE ARRAY. The head of the feeder queue enters when it may: a clear zeroes all cells as it enters (log entry 7), a snap token's copy is that of the cells as it enters (log entry 8), a cell program and a configuration take their place, a drain lets the column
in the east out and a shift brings a row of accumulator memory in at the west. A wave that has crossed raises its flags in AFLG; rows due, which no running
command reads or writes, land in accumulator memory and nowhere else; ownership ends once it may (R105, R113, R123, R125 to R127, R283 to R287). -/
def Obligations.ArrayEvents : Prop :=
  (∀ (s : State) (i : Item) (rest : List Item),
    let r := s.core.arr
    r.items = i :: rest → r.mayEnter s.cyc = true → r.rest = none →
    ∃ t, exec .arrayItemEntry s = .next t ∧ t.core.arr.items = rest ∧ SameRegs s t ∧ SameSpad s t ∧ SameAccm s t ∧ SameGlobal s t ∧
      let q := t.core.arr
      (i.kind = .clear → q.grid = Grid.reset ∧ q.copy = Grid.reset) ∧
      (∀ p, i.kind = .cell p → q.edge.prog = p ∧ q.grid = r.grid) ∧
      (∀ w, i.kind = .cfg w → q.edge.cfg = w ∧ q.edge.n = 0 ∧ q.grid = r.grid) ∧
      (∀ row, i.kind = .drain row → (∃ d, q.exits = r.exits ++ [⟨s.cyc + 5, i.ser, i.ctx, some row, d, false⟩] ∧
          ∀ k < 32, lane d 32 k = (tget 0 r.grid.acc (32 * k + 31)).toNat) ∧
        ∀ n < 1024, tget 0 q.grid.acc n = if n % 32 = 0 then 0 else tget 0 r.grid.acc (n - 1)) ∧
      (i.kind = .snap → q.copy = r.grid ∧ q.edgeCopy = r.edge ∧ q.grid = r.grid) ∧
      ∀ row, i.kind = .shift row 0 → ∀ n < 1024, tget 0 q.grid.acc n =
        if n % 32 = 0 then BitVec.ofNat 32 (lane (leNat (Memory.read s.core.accm (128 * row) 128)) 32 (n / 32)) else tget 0 r.grid.acc (n - 1)) ∧
  (∀ (s : State) (x : Crossing), s.core.arr.cross = [x] → x.entry + 63 ≤ s.cyc → s.core.arr.rest = none →
    ∃ t, exec .beatSettle s = .next t ∧ t.core.arr.cross = [] ∧ SameRegs s t ∧
      tget 0 (t.core.ctx x.ctx).sys.flg 3 = tget 0 (s.core.ctx x.ctx).sys.flg 3 ||| x.flags ∧
      ∀ n, n ≠ 3 → tget 0 (t.core.ctx x.ctx).sys.flg n = tget 0 (s.core.ctx x.ctx).sys.flg n) ∧
  (∀ (s : State) (e : Exit) (row : Nat), s.memoriesWf → s.core.arr.exits = [e] → e.due ≤ s.cyc → e.row = some row →
    s.core.copying none = [] →
    ∃ t, exec (if e.edge then .edgeRowLanding else .drainLanding) s = .next t ∧ t.core.arr.exits = [] ∧ SameRegs s t ∧ SameSpad s t ∧
      (∀ k < 128, Memory.get t.core.accm (128 * row + k) = BitVec.ofNat 8 (e.data / 256 ^ k)) ∧ AccmOutside s t (128 * row) 128) ∧
  ∀ s : State, s.core.arr.ownershipEnds = true →
    ∃ t, exec .arrayOwnershipEnd s = .next t ∧ t.core.arr.owner = none ∧ t.core.arr.releasing = false ∧ t.core.arr.grid = s.core.arr.grid ∧ SameRegs s t

/-! ### Engines (R138, R140, R166, R183, R205, R304 to R306, R315) -/

namespace Sys2Proof.Claims

/-- The only command that the copy engine is moving, of a kind that it moves on its own. -/
def Moving (s : State) (k : Cmd) : Prop :=
  s.ctx.copyNext = none ∧ k.kind ≤ 2 ∧ k.stage = 2 ∧ s.ctx.q.cmds = [k]
/-- The command has read its whole line, of `n` bytes, and nothing stands against the bytes: no other command of the core runs, and no other agent has
written bytes of this one (R304). -/
def Whole (s : State) (k : Cmd) (n : Nat) : Prop :=
  k.buf.length = n ∧ k.run = 0 ∧ k.bad = false ∧ k.dirty = [] ∧ s.core.copying (some (s.sub, k.num)) = []
/-- A started CPYC, the only command of its context. -/
def Filling (s : State) (k : Cmd) : Prop := k.kind = 3 ∧ k.stage = 2 ∧ s.ctx.q.cmds = [k]

end Sys2Proof.Claims

/-- COPIES. A command whose turn it is starts. A started CPY, CPYT or CPYM from the scratchpad to accumulator memory moves its data line by line: it reads a
line, then writes those bytes and no others, and moves on, or completes after its last line, where no other command runs and no other agent has written bytes of it
(R304, R306; lines and their order are the model's, log entry 19); so does a CPYC from accumulator memory, which waits for a free slot and advances WP with the last line of one
(R140, R306); a CBSET sets its handle's BASE, SSIZE and NSLOT and zeroes its pointers (R138); a completed command leaves the engine, and its
failure awaits its report (R166, R356). -/
def Obligations.CopyEvents : Prop :=
  (∀ (s : State) (k : Cmd), s.ctx.copyNext = some k → (k.kind = 3 → cpycOk k (s.cb k.cb) = true) → (k.kind = 4 ∨ k.finished (s.cb k.cb) = false) →
    exec .copyCommandStart s = .next (s.modQ fun q => { q with cmds := q.cmds.map fun c => if c.num = k.num then { c with stage := 2 } else c })) ∧
  (∀ (s : State) (k : Cmd) (a d n : Nat), Moving s k → k.job (s.cb k.cb) = [(a, d, n)] → ctlSsp k.ctl = 1 → ctlDsp k.ctl = 2 →
    (k.io = 0 → k.buf = [] → 0 < n → s.bankIdle a = true → s.preloading a = false → s.core.errs = [] →
      exec .copyCommandStart s = .next (s.modQ fun q => { q with cmds := [{ k with io := 2, buf := Memory.read s.core.spad a n }] })) ∧
    (s.memoriesWf → k.io = 2 → Whole s k n → s.rowIdle d = true → ∃ t, exec .copyCommandStart s = .next t ∧ SameRegs s t ∧ SameSpad s t ∧ SameGlobal s t ∧
      (∀ i < k.buf.length, Memory.get t.core.accm (d + i) = nth 0 k.buf i) ∧ AccmOutside s t d k.buf.length ∧
      let k' := k.advance (s.cb k.cb)
      if k'.finished (s.cb k.cb) then
        t.ctx.q.cmds = [{ k' with stage := 3, io := 0, buf := [], run := 0, bad := false, dirty := [], err := 0, faddr := 0 }] ∧
          t.todo = s.todo ++ [⟨s.focus, s.sub, .copyComplete k.num⟩]
      else t.ctx.q.cmds = [k'] ∧ t.todo = s.todo)) ∧
  (∀ (s : State) (num : Nat) (k : Cmd), (s.ctx.q.cmds.find? fun k => k.num == num) = some k → k.stage = 3 →
    ∃ t, exec (.copyComplete num) s = .next t ∧ (∀ c ∈ t.ctx.q.cmds, c.num ≠ num) ∧ (0, num) ∉ t.ctx.q.tlOut ∧ SameRegs s t ∧
      t.ctx.q.deferred = s.ctx.q.deferred ++ if k.err = 0 then [] else [⟨k.ser, 0, num, k.err, k.faddr⟩]) ∧
  (∀ (s : State) (k : Cmd), Filling s k →
    (k.pos = 0 → k.off = 0 → k.io = 0 → (s.cb k.cb).free ≤ 0 → exec (.cpycSlotFill k.num) s = .next s) ∧
    ∀ a d n, k.job (s.cb k.cb) = [(a, d, n)] → ctlSsp k.ctl = 2 →
      (k.io = 0 → k.buf = [] → 0 < n → (k.pos ≠ 0 ∨ k.off ≠ 0 ∨ 0 < (s.cb k.cb).free) → s.rowIdle a = true → s.core.arr.rowPending (a / 128) = false →
        s.core.errs = [] →
        exec (.cpycSlotFill k.num) s = .next (s.modQ fun q => { q with cmds := [{ k with io := 2, buf := Memory.read s.core.accm a n }] })) ∧
      (s.memoriesWf → k.io = 2 → Whole s k n → s.bankIdle d = true → (s.cb k.cb).prog = false →
        ∃ t, exec (.cpycSlotFill k.num) s = .next t ∧ (t.cb k.cb).rp = (s.cb k.cb).rp ∧
          (∀ i < k.buf.length, Memory.get t.core.spad (d + i) = nth 0 k.buf i) ∧ SpadOutside s t d k.buf.length ∧ SameAccm s t ∧ SameGlobal s t ∧
          let k' := k.advance (s.cb k.cb)
          (t.cb k.cb).wp = (if k'.finished (s.cb k.cb) then ((s.cb k.cb).wp + 1) % 2 ^ 32 else (s.cb k.cb).wp) ∧
            ∀ c ∈ t.ctx.q.cmds, c.slots = if k'.finished (s.cb k.cb) then k.slots + 1 else k.slots)) ∧
  ∀ (s : State) (num : Nat) (k : Cmd), (s.ctx.q.cmds.find? fun k => k.num == num) = some k → s.ctx.cbsetReady k = true →
    ∃ t, exec (.cbsetTakesEffect num) s = .next t ∧ (0, num) ∉ t.ctx.q.tlOut ∧
      t.cb k.cb = ⟨nth 0 k.ops 0, nth 0 k.ops 1, nth 0 k.ops 2, 0, 0, 0, 0, (s.cb k.cb).pendSet - 1, false, false⟩ ∧
      (∀ b, b ≠ k.cb → t.cb b = s.cb b) ∧ SameSpad s t ∧ SameAccm s t

/-- FLAGS AND COLLECTIVES. A FLAGW that may write its flag sends its store, or, where an operation that it covers has failed, gives the flag up for that
failure; a WAITF loads its flag again at its interval and once more at its deadline; a COLL that may start reads its member block, and sends what it has read of its contribution to
its group's home (R183, R205, R315, R388; the packet's header is laid out by the model, log entry 21). -/
def Obligations.FlagEvents : Prop :=
  (∀ (s : State) (f : FlagW), s.ctx.q.flagws.find? s.ctx.flagwReady = some f →
    (∀ d, s.ctx.q.coveredFailure f = some d → ∃ t, exec .flagwFlagWrite s = .next t ∧ (∀ x ∈ t.ctx.q.flagws, x.id ≠ f.id) ∧ t.todo = s.todo ∧
      t.ctx.q.deferred = s.ctx.q.deferred ++ [{ d with ctr := 5, num := 0 }]) ∧
    ∀ pa pte, s.ctx.q.coveredFailure f = none → Maps s s.root f.va 1 pa pte → Reaches s s.focus.core pa →
      ∃ t, exec .flagwFlagWrite s = .next t ∧ (∀ x ∈ t.ctx.q.flagws, x.id = f.id → x.sent = true) ∧ SameRegs s t ∧
        t.todo = s.todo ++ [arrival s (underLeaf { blankPacket with
          typ := 3, size := 8, dest := pa, agent := s.focus.core, sctx := s.sub, id := idFlagw f.id, data := leBytes 8 f.val.toNat } s.root f.va pte)]) ∧
  (∀ (s : State) (w : WaitF) (pa pte : Nat), s.ctx.pipe.waitf = some w → s.ctx.loadHeld = false → Maps s s.root w.va 0 pa pte →
    Reaches s s.focus.core pa →
    let load (last : Bool) := arrival s { loadPacket s.focus s.sub s.root w.va pa pte 8 (idWaitf w.id) with tag := last.toNat }
    (w.reloadDue s.cyc = true → ∃ t, exec .waitfReload s = .next t ∧ SameRegs s t ∧ t.todo = s.todo ++ [load false] ∧
      t.ctx.pipe.waitf = some { w with last := s.cyc, due := false }) ∧
    (w.deadlineDue s.cyc = true → ∃ t, exec .waitfDeadline s = .next t ∧ SameRegs s t ∧ t.todo = s.todo ++ [load true] ∧
      t.ctx.pipe.waitf = some { w with last := s.cyc, final := true, due := false })) ∧
  ∀ (s : State) (k : CollOp) (pa pte : Nat), s.ctx.q.colls = [k] → k.err = 0 → k.io = false → Reaches s 40 pa →
    (k.started = false → s.ctx.collReady k = true → Maps s k.root k.va 0 pa pte →
      ∃ t, exec (.collEngineStart k.num) s = .next t ∧ SameRegs s t ∧
        t.ctx.q.colls = [{ k with started := true, io := true }] ∧
        t.todo = s.todo ++ [arrival s (underLeaf { blankPacket with
          typ := 1, size := 64, dest := pa, agent := 40, sctx := s.sub, id := idCollRead k.num s.focus.core } k.root k.va pte)]) ∧
    (k.started = true → (128 ≤ k.buf.length ∨ k.off = blkBytes k.blk ∧ k.buf ≠ []) → Maps s k.root (blkGroup k.blk) 1 pa pte →
      ∃ t, exec (.collEngineStart k.num) s = .next t ∧ SameRegs s t ∧
        t.ctx.q.colls = [{ k with
          out := k.out + 1, buf := k.buf.drop 128, first := k.first + (k.buf.take 128).length / collSize (blkFmt k.blk) }] ∧
        t.todo = s.todo ++ [arrival s (underLeaf { blankPacket with
          typ := 7, size := (k.buf.take 128).length, dest := pa, agent := 40, sctx := s.sub, aux := blkOp k.blk, id := idColl k.num s.focus.core
          faddr := blkGroup k.blk, fval := blkInst k.blk + blkIdx k.blk * 2 ^ 16 + k.first * 2 ^ 32, data := k.buf.take 128 }
            k.root (blkGroup k.blk) pte)])

/-! ### An invariant of every step -/

/-- Every step keeps the canonical form of every memory: listed bytes rise by address, and none is what an unlisted byte reads as. The form is the
model's (log entry 2). -/
def Obligations.MemoriesStayCanonical : Prop :=
  ∀ s t : State, s.memoriesWf → step s = .next t → t.memoriesWf
end

