-- ==== Sys2Proof/Laws/Tab.lean ====
section
/-! SUPPORT. Reading back what a table or a byte memory was given, and the canonical form of memory. -/

namespace Sys2Proof.Machine

/-! ### Tables -/

@[simp] theorem tget_nil {α : Type} (d : α) (n : Nat) : tget d ([] : Tab α) n = d := rfl

@[simp] theorem tget_tset_same {α : Type} (d : α) (t : Tab α) (n : Nat) (x : α) : tget d (tset t n x) n = x := by
  induction t with
  | nil => simp [tset, tget]
  | cons e t ih =>
    obtain ⟨k, v⟩ := e
    simp only [tset]
    split
    · simp [tget]
    · split
      · simp [tget]
      · rw [tget, if_neg (by omega), ih]

theorem tget_tset_other {α : Type} (d : α) (t : Tab α) {n m : Nat} (x : α) (h : m ≠ n) : tget d (tset t n x) m = tget d t m := by
  induction t with
  | nil => simp [tset, tget, Ne.symm h]
  | cons e t ih =>
    obtain ⟨k, v⟩ := e
    simp only [tset]
    split
    · simp [tget, Ne.symm h]
    · split
      · subst_vars; simp [tget, Ne.symm h]
      · simp only [tget, ih]

@[simp] theorem tget_tmod_same {α : Type} (d : α) (t : Tab α) (n : Nat) (f : α → α) : tget d (tmod d t n f) n = f (tget d t n) :=
  tget_tset_same ..

theorem tget_tmod_other {α : Type} (d : α) (t : Tab α) {n m : Nat} (f : α → α) (h : m ≠ n) : tget d (tmod d t n f) m = tget d t m :=
  tget_tset_other _ _ _ h

/-! ### Memory -/

/-- A byte written reads back. -/
@[simp] theorem Memory.get_set_same (m : Memory) (a : Nat) (b : Byte) (h : m.wf = true) : (m.set a b).get a = b := by
  suffices H : ∀ lo, Memory.wfFrom lo m = true → (Memory.set m a b).get a = b from H 0 h
  clear h
  induction m with
  | nil => intro lo _; simp only [Memory.set]; split <;> simp_all [Memory.get]
  | cons e m ih =>
    obtain ⟨k, v⟩ := e
    intro lo h
    simp only [Memory.wfFrom, Bool.and_eq_true, decide_eq_true_eq] at h
    have low : ∀ (m : Memory) (lo : Nat), Memory.wfFrom lo m = true → a < lo → Memory.get m a = Config.unwritten := by
      intro m
      induction m with
      | nil => intros; rfl
      | cons e m ih =>
        obtain ⟨k, v⟩ := e
        intro lo h hl
        simp only [Memory.wfFrom, Bool.and_eq_true, decide_eq_true_eq] at h
        rw [Memory.get, if_neg (by omega), ih (k + 1) h.2 (by omega)]
    simp only [Memory.set]
    split
    · split
      · rw [Memory.get, if_neg (by omega), low m (k + 1) h.2 (by omega)]; simp_all
      · simp [Memory.get]
    · split
      · subst_vars
        split
        · rw [low m (k + 1) h.2 (by omega)]; simp_all
        · simp [Memory.get]
      · rw [Memory.get, if_neg (by omega), ih (k + 1) h.2]

/-- A write leaves every other byte alone. -/
theorem Memory.get_set_other (m : Memory) {a x : Nat} (b : Byte) (h : x ≠ a) : (m.set a b).get x = m.get x := by
  induction m with
  | nil => simp only [Memory.set]; split <;> simp [Memory.get, Ne.symm h]
  | cons e m ih =>
    obtain ⟨k, v⟩ := e
    simp only [Memory.set]
    split
    · split <;> simp [Memory.get, Ne.symm h]
    · split
      · subst_vars; split <;> simp [Memory.get, Ne.symm h]
      · simp only [Memory.get, ih]

theorem Memory.wfFrom_set (m : Memory) (a : Nat) (b : Byte) : ∀ lo, Memory.wfFrom lo m = true → lo ≤ a →
    Memory.wfFrom lo (m.set a b) = true := by
  induction m with
  | nil =>
    intro lo _ hl
    simp only [Memory.set]
    split <;> simp_all [Memory.wfFrom]
  | cons e m ih =>
    obtain ⟨k, v⟩ := e
    intro lo h hl
    simp only [Memory.wfFrom, Bool.and_eq_true, decide_eq_true_eq] at h
    have weaken : ∀ (m : Memory) (i j : Nat), i ≤ j → Memory.wfFrom j m = true → Memory.wfFrom i m = true := by
      intro m
      cases m with
      | nil => intros; rfl
      | cons e m =>
        intro i j hij h
        simp only [Memory.wfFrom, Bool.and_eq_true, decide_eq_true_eq] at h ⊢
        exact ⟨⟨by omega, h.1.2⟩, h.2⟩
    simp only [Memory.set]
    split
    · split
      · simp [Memory.wfFrom, h]
      · simp only [Memory.wfFrom, Bool.and_eq_true, decide_eq_true_eq]
        exact ⟨⟨hl, by assumption⟩, ⟨by omega, h.1.2⟩, h.2⟩
    · split
      · subst_vars
        split
        · exact weaken m lo (k + 1) (by omega) h.2
        · simp_all [Memory.wfFrom]
      · simp only [Memory.wfFrom, Bool.and_eq_true, decide_eq_true_eq]
        exact ⟨⟨h.1.1, h.1.2⟩, ih (k + 1) h.2 (by omega)⟩

/-- A write keeps the canonical form. -/
@[simp] theorem Memory.wf_set (m : Memory) (a : Nat) (b : Byte) (h : m.wf = true) : (m.set a b).wf = true :=
  Memory.wfFrom_set m a b 0 h (Nat.zero_le a)

/-- A write of bytes keeps the canonical form. -/
@[simp] theorem Memory.wf_write (bs : List Byte) : ∀ (m : Memory) (a : Nat), m.wf = true → (m.write a bs).wf = true := by
  induction bs with
  | nil => intro m a h; exact h
  | cons b bs ih => intro m a h; exact ih _ _ (Memory.wf_set m a b h)

@[simp] theorem Memory.wf_nil : Memory.wf [] = true := rfl

/-- Bytes outside those written stay. -/
theorem Memory.get_write_other (bs : List Byte) : ∀ (m : Memory) (a x : Nat), x < a ∨ a + bs.length ≤ x →
    (m.write a bs).get x = m.get x := by
  induction bs with
  | nil => intros; rfl
  | cons b bs ih =>
    intro m a x h
    simp only [List.length_cons] at h
    rw [Memory.write, ih _ _ _ (by omega), Memory.get_set_other _ _ (by omega)]

/-- Bytes written read back. -/
theorem Memory.get_write_in (bs : List Byte) : ∀ (m : Memory) (a i : Nat), m.wf = true → (h : i < bs.length) →
    (m.write a bs).get (a + i) = bs[i] := by
  induction bs with
  | nil => intro _ _ i _ h; simp at h
  | cons b bs ih =>
    intro m a i hm h
    cases i with
    | zero => rw [Memory.write, Memory.get_write_other _ _ _ _ (by omega)]; simp [hm]
    | succ i =>
      have e : a + (i + 1) = (a + 1) + i := by omega
      rw [Memory.write, e, ih _ _ _ (Memory.wf_set m a b hm) (by simpa using h)]
      rfl

@[simp] theorem Memory.length_read (m : Memory) (n : Nat) : ∀ a, (m.read a n).length = n := by
  induction n with
  | zero => intro; rfl
  | succ n ih => intro a; simp [Memory.read, ih]

/-- What was written reads back whole. -/
theorem Memory.read_write (bs : List Byte) : ∀ (m : Memory) (a : Nat), m.wf = true → (m.write a bs).read a bs.length = bs := by
  induction bs with
  | nil => intros; rfl
  | cons b bs ih =>
    intro m a h
    simp only [Memory.write, List.length_cons, Memory.read]
    rw [ih _ _ (Memory.wf_set m a b h), Memory.get_write_other _ _ _ _ (by omega), Memory.get_set_same m a b h]

/-- Canonical memories that read alike are the same data. -/
theorem Memory.wfFrom_ext (m : Memory) : ∀ (m' : Memory) (lo : Nat), Memory.wfFrom lo m = true → Memory.wfFrom lo m' = true →
    (∀ a, m.get a = m'.get a) → m = m' := by
  have low : ∀ (m : Memory) (lo a : Nat), Memory.wfFrom lo m = true → a < lo → Memory.get m a = Config.unwritten := by
    intro m
    induction m with
    | nil => intros; rfl
    | cons e m ih =>
      obtain ⟨k, v⟩ := e
      intro lo a h hl
      simp only [Memory.wfFrom, Bool.and_eq_true, decide_eq_true_eq] at h
      rw [Memory.get, if_neg (by omega), ih (k + 1) a h.2 (by omega)]
  induction m with
  | nil =>
    intro m' lo _ h' e
    cases m' with
    | nil => rfl
    | cons x m' =>
      obtain ⟨k, v⟩ := x
      simp only [Memory.wfFrom, Bool.and_eq_true, decide_eq_true_eq] at h'
      have := e k
      simp [Memory.get] at this
      exact absurd this.symm h'.1.2
  | cons x m ih =>
    obtain ⟨k, v⟩ := x
    intro m' lo h h' e
    simp only [Memory.wfFrom, Bool.and_eq_true, decide_eq_true_eq] at h
    cases m' with
    | nil =>
      have := e k
      simp [Memory.get] at this
      exact absurd this h.1.2
    | cons y m' =>
      obtain ⟨k', v'⟩ := y
      simp only [Memory.wfFrom, Bool.and_eq_true, decide_eq_true_eq] at h'
      rcases Nat.lt_trichotomy k k' with hk | hk | hk
      · have := e k
        rw [Memory.get, if_pos rfl, Memory.get, if_neg (by omega), low m' (k' + 1) k h'.2 (by omega)] at this
        exact absurd this h.1.2
      · subst hk
        have hv := e k
        simp only [Memory.get, if_true] at hv
        subst hv
        congr 1
        apply ih m' (k + 1) h.2 h'.2
        intro a
        by_cases ha : k = a
        · subst ha; rw [low m (k + 1) k h.2 (by omega), low m' (k + 1) k h'.2 (by omega)]
        · simpa [Memory.get, ha] using e a
      · have := e k'
        rw [Memory.get, if_neg (by omega), low m (k + 1) k' h.2 (by omega), Memory.get, if_pos rfl] at this
        exact absurd this.symm h'.1.2

/-- Equal reads make equal canonical memories. -/
theorem Memory.ext_get {m m' : Memory} (h : m.wf = true) (h' : m'.wf = true) (e : ∀ a, m.get a = m'.get a) : m = m' :=
  Memory.wfFrom_ext m m' 0 h h' e

end Sys2Proof.Machine
end

