-- ==== Sys2Proof/Laws/State.lean ====
section
/-! SUPPORT. One lemma for each field and each update of the state, a context and a core. -/

namespace Sys2Proof.Machine

/-! ### A context -/

@[simp] theorem Ctx.onRegs_bind (c : Ctx) (f : Regs → Regs) : (c.onRegs f).bind = c.bind := rfl
@[simp] theorem Ctx.onRegs_ctl (c : Ctx) (f : Regs → Regs) : (c.onRegs f).ctl = c.ctl := rfl
@[simp] theorem Ctx.onRegs_half (c : Ctx) (f : Regs → Regs) : (c.onRegs f).half = c.half := rfl
@[simp] theorem Ctx.onRegs_idle (c : Ctx) (f : Regs → Regs) : (c.onRegs f).idle = c.idle := rfl
@[simp] theorem Ctx.onRegs_fetch (c : Ctx) (f : Regs → Regs) : (c.onRegs f).fetch = c.fetch := rfl
@[simp] theorem Ctx.onRegs_latch (c : Ctx) (f : Regs → Regs) : (c.onRegs f).latch = c.latch := rfl
@[simp] theorem Ctx.onRegs_cur (c : Ctx) (f : Regs → Regs) : (c.onRegs f).cur = c.cur := rfl
@[simp] theorem Ctx.onRegs_claims (c : Ctx) (f : Regs → Regs) : (c.onRegs f).claims = c.claims := rfl
@[simp] theorem Ctx.onRegs_drain (c : Ctx) (f : Regs → Regs) : (c.onRegs f).drain = c.drain := rfl
@[simp] theorem Ctx.onRegs_yielding (c : Ctx) (f : Regs → Regs) : (c.onRegs f).yielding = c.yielding := rfl
@[simp] theorem Ctx.onRegs_aside (c : Ctx) (f : Regs → Regs) : (c.onRegs f).aside = c.aside := rfl
@[simp] theorem Ctx.onRegs_regs (c : Ctx) (f : Regs → Regs) : (c.onRegs f).regs = f c.regs := rfl
@[simp] theorem Ctx.onRegs_sys (c : Ctx) (f : Regs → Regs) : (c.onRegs f).sys = c.sys := rfl
@[simp] theorem Ctx.onRegs_pipe (c : Ctx) (f : Regs → Regs) : (c.onRegs f).pipe = c.pipe := rfl
@[simp] theorem Ctx.onRegs_q (c : Ctx) (f : Regs → Regs) : (c.onRegs f).q = c.q := rfl
@[simp] theorem Ctx.onRegs_stopping (c : Ctx) (f : Regs → Regs) : (c.onRegs f).stopping = c.stopping := rfl
@[simp] theorem Ctx.onRegs_notBefore (c : Ctx) (f : Regs → Regs) : (c.onRegs f).notBefore = c.notBefore := rfl
@[simp] theorem Ctx.onRegs_pre (c : Ctx) (f : Regs → Regs) : (c.onRegs f).pre = c.pre := rfl
@[simp] theorem Ctx.onRegs_mchk (c : Ctx) (f : Regs → Regs) : (c.onRegs f).mchk = c.mchk := rfl
@[simp] theorem Ctx.onRegs_preBank (c : Ctx) (f : Regs → Regs) : (c.onRegs f).preBank = c.preBank := rfl

@[simp] theorem Ctx.onPipe_bind (c : Ctx) (f : Pipe → Pipe) : (c.onPipe f).bind = c.bind := rfl
@[simp] theorem Ctx.onPipe_ctl (c : Ctx) (f : Pipe → Pipe) : (c.onPipe f).ctl = c.ctl := rfl
@[simp] theorem Ctx.onPipe_half (c : Ctx) (f : Pipe → Pipe) : (c.onPipe f).half = c.half := rfl
@[simp] theorem Ctx.onPipe_idle (c : Ctx) (f : Pipe → Pipe) : (c.onPipe f).idle = c.idle := rfl
@[simp] theorem Ctx.onPipe_fetch (c : Ctx) (f : Pipe → Pipe) : (c.onPipe f).fetch = c.fetch := rfl
@[simp] theorem Ctx.onPipe_latch (c : Ctx) (f : Pipe → Pipe) : (c.onPipe f).latch = c.latch := rfl
@[simp] theorem Ctx.onPipe_cur (c : Ctx) (f : Pipe → Pipe) : (c.onPipe f).cur = c.cur := rfl
@[simp] theorem Ctx.onPipe_claims (c : Ctx) (f : Pipe → Pipe) : (c.onPipe f).claims = c.claims := rfl
@[simp] theorem Ctx.onPipe_drain (c : Ctx) (f : Pipe → Pipe) : (c.onPipe f).drain = c.drain := rfl
@[simp] theorem Ctx.onPipe_yielding (c : Ctx) (f : Pipe → Pipe) : (c.onPipe f).yielding = c.yielding := rfl
@[simp] theorem Ctx.onPipe_aside (c : Ctx) (f : Pipe → Pipe) : (c.onPipe f).aside = c.aside := rfl
@[simp] theorem Ctx.onPipe_regs (c : Ctx) (f : Pipe → Pipe) : (c.onPipe f).regs = c.regs := rfl
@[simp] theorem Ctx.onPipe_sys (c : Ctx) (f : Pipe → Pipe) : (c.onPipe f).sys = c.sys := rfl
@[simp] theorem Ctx.onPipe_pipe (c : Ctx) (f : Pipe → Pipe) : (c.onPipe f).pipe = f c.pipe := rfl
@[simp] theorem Ctx.onPipe_q (c : Ctx) (f : Pipe → Pipe) : (c.onPipe f).q = c.q := rfl
@[simp] theorem Ctx.onPipe_stopping (c : Ctx) (f : Pipe → Pipe) : (c.onPipe f).stopping = c.stopping := rfl
@[simp] theorem Ctx.onPipe_notBefore (c : Ctx) (f : Pipe → Pipe) : (c.onPipe f).notBefore = c.notBefore := rfl
@[simp] theorem Ctx.onPipe_pre (c : Ctx) (f : Pipe → Pipe) : (c.onPipe f).pre = c.pre := rfl
@[simp] theorem Ctx.onPipe_mchk (c : Ctx) (f : Pipe → Pipe) : (c.onPipe f).mchk = c.mchk := rfl
@[simp] theorem Ctx.onPipe_preBank (c : Ctx) (f : Pipe → Pipe) : (c.onPipe f).preBank = c.preBank := rfl

@[simp] theorem Ctx.onQ_bind (c : Ctx) (f : Queues → Queues) : (c.onQ f).bind = c.bind := rfl
@[simp] theorem Ctx.onQ_ctl (c : Ctx) (f : Queues → Queues) : (c.onQ f).ctl = c.ctl := rfl
@[simp] theorem Ctx.onQ_half (c : Ctx) (f : Queues → Queues) : (c.onQ f).half = c.half := rfl
@[simp] theorem Ctx.onQ_idle (c : Ctx) (f : Queues → Queues) : (c.onQ f).idle = c.idle := rfl
@[simp] theorem Ctx.onQ_fetch (c : Ctx) (f : Queues → Queues) : (c.onQ f).fetch = c.fetch := rfl
@[simp] theorem Ctx.onQ_latch (c : Ctx) (f : Queues → Queues) : (c.onQ f).latch = c.latch := rfl
@[simp] theorem Ctx.onQ_cur (c : Ctx) (f : Queues → Queues) : (c.onQ f).cur = c.cur := rfl
@[simp] theorem Ctx.onQ_claims (c : Ctx) (f : Queues → Queues) : (c.onQ f).claims = c.claims := rfl
@[simp] theorem Ctx.onQ_drain (c : Ctx) (f : Queues → Queues) : (c.onQ f).drain = c.drain := rfl
@[simp] theorem Ctx.onQ_yielding (c : Ctx) (f : Queues → Queues) : (c.onQ f).yielding = c.yielding := rfl
@[simp] theorem Ctx.onQ_aside (c : Ctx) (f : Queues → Queues) : (c.onQ f).aside = c.aside := rfl
@[simp] theorem Ctx.onQ_regs (c : Ctx) (f : Queues → Queues) : (c.onQ f).regs = c.regs := rfl
@[simp] theorem Ctx.onQ_sys (c : Ctx) (f : Queues → Queues) : (c.onQ f).sys = c.sys := rfl
@[simp] theorem Ctx.onQ_pipe (c : Ctx) (f : Queues → Queues) : (c.onQ f).pipe = c.pipe := rfl
@[simp] theorem Ctx.onQ_q (c : Ctx) (f : Queues → Queues) : (c.onQ f).q = f c.q := rfl
@[simp] theorem Ctx.onQ_stopping (c : Ctx) (f : Queues → Queues) : (c.onQ f).stopping = c.stopping := rfl
@[simp] theorem Ctx.onQ_notBefore (c : Ctx) (f : Queues → Queues) : (c.onQ f).notBefore = c.notBefore := rfl
@[simp] theorem Ctx.onQ_pre (c : Ctx) (f : Queues → Queues) : (c.onQ f).pre = c.pre := rfl
@[simp] theorem Ctx.onQ_mchk (c : Ctx) (f : Queues → Queues) : (c.onQ f).mchk = c.mchk := rfl
@[simp] theorem Ctx.onQ_preBank (c : Ctx) (f : Queues → Queues) : (c.onQ f).preBank = c.preBank := rfl

@[simp] theorem Ctx.onSys_bind (c : Ctx) (f : Sys → Sys) : (c.onSys f).bind = c.bind := rfl
@[simp] theorem Ctx.onSys_ctl (c : Ctx) (f : Sys → Sys) : (c.onSys f).ctl = c.ctl := rfl
@[simp] theorem Ctx.onSys_half (c : Ctx) (f : Sys → Sys) : (c.onSys f).half = c.half := rfl
@[simp] theorem Ctx.onSys_idle (c : Ctx) (f : Sys → Sys) : (c.onSys f).idle = c.idle := rfl
@[simp] theorem Ctx.onSys_fetch (c : Ctx) (f : Sys → Sys) : (c.onSys f).fetch = c.fetch := rfl
@[simp] theorem Ctx.onSys_latch (c : Ctx) (f : Sys → Sys) : (c.onSys f).latch = c.latch := rfl
@[simp] theorem Ctx.onSys_cur (c : Ctx) (f : Sys → Sys) : (c.onSys f).cur = c.cur := rfl
@[simp] theorem Ctx.onSys_claims (c : Ctx) (f : Sys → Sys) : (c.onSys f).claims = c.claims := rfl
@[simp] theorem Ctx.onSys_drain (c : Ctx) (f : Sys → Sys) : (c.onSys f).drain = c.drain := rfl
@[simp] theorem Ctx.onSys_yielding (c : Ctx) (f : Sys → Sys) : (c.onSys f).yielding = c.yielding := rfl
@[simp] theorem Ctx.onSys_aside (c : Ctx) (f : Sys → Sys) : (c.onSys f).aside = c.aside := rfl
@[simp] theorem Ctx.onSys_regs (c : Ctx) (f : Sys → Sys) : (c.onSys f).regs = c.regs := rfl
@[simp] theorem Ctx.onSys_sys (c : Ctx) (f : Sys → Sys) : (c.onSys f).sys = f c.sys := rfl
@[simp] theorem Ctx.onSys_pipe (c : Ctx) (f : Sys → Sys) : (c.onSys f).pipe = c.pipe := rfl
@[simp] theorem Ctx.onSys_q (c : Ctx) (f : Sys → Sys) : (c.onSys f).q = c.q := rfl
@[simp] theorem Ctx.onSys_stopping (c : Ctx) (f : Sys → Sys) : (c.onSys f).stopping = c.stopping := rfl
@[simp] theorem Ctx.onSys_notBefore (c : Ctx) (f : Sys → Sys) : (c.onSys f).notBefore = c.notBefore := rfl
@[simp] theorem Ctx.onSys_pre (c : Ctx) (f : Sys → Sys) : (c.onSys f).pre = c.pre := rfl
@[simp] theorem Ctx.onSys_mchk (c : Ctx) (f : Sys → Sys) : (c.onSys f).mchk = c.mchk := rfl
@[simp] theorem Ctx.onSys_preBank (c : Ctx) (f : Sys → Sys) : (c.onSys f).preBank = c.preBank := rfl

@[simp] theorem Ctx.onCtl_bind (c : Ctx) (f : Ctl → Ctl) : (c.onCtl f).bind = c.bind := rfl
@[simp] theorem Ctx.onCtl_ctl (c : Ctx) (f : Ctl → Ctl) : (c.onCtl f).ctl = f c.ctl := rfl
@[simp] theorem Ctx.onCtl_half (c : Ctx) (f : Ctl → Ctl) : (c.onCtl f).half = c.half := rfl
@[simp] theorem Ctx.onCtl_idle (c : Ctx) (f : Ctl → Ctl) : (c.onCtl f).idle = c.idle := rfl
@[simp] theorem Ctx.onCtl_fetch (c : Ctx) (f : Ctl → Ctl) : (c.onCtl f).fetch = c.fetch := rfl
@[simp] theorem Ctx.onCtl_latch (c : Ctx) (f : Ctl → Ctl) : (c.onCtl f).latch = c.latch := rfl
@[simp] theorem Ctx.onCtl_cur (c : Ctx) (f : Ctl → Ctl) : (c.onCtl f).cur = c.cur := rfl
@[simp] theorem Ctx.onCtl_claims (c : Ctx) (f : Ctl → Ctl) : (c.onCtl f).claims = c.claims := rfl
@[simp] theorem Ctx.onCtl_drain (c : Ctx) (f : Ctl → Ctl) : (c.onCtl f).drain = c.drain := rfl
@[simp] theorem Ctx.onCtl_yielding (c : Ctx) (f : Ctl → Ctl) : (c.onCtl f).yielding = c.yielding := rfl
@[simp] theorem Ctx.onCtl_aside (c : Ctx) (f : Ctl → Ctl) : (c.onCtl f).aside = c.aside := rfl
@[simp] theorem Ctx.onCtl_regs (c : Ctx) (f : Ctl → Ctl) : (c.onCtl f).regs = c.regs := rfl
@[simp] theorem Ctx.onCtl_sys (c : Ctx) (f : Ctl → Ctl) : (c.onCtl f).sys = c.sys := rfl
@[simp] theorem Ctx.onCtl_pipe (c : Ctx) (f : Ctl → Ctl) : (c.onCtl f).pipe = c.pipe := rfl
@[simp] theorem Ctx.onCtl_q (c : Ctx) (f : Ctl → Ctl) : (c.onCtl f).q = c.q := rfl
@[simp] theorem Ctx.onCtl_stopping (c : Ctx) (f : Ctl → Ctl) : (c.onCtl f).stopping = c.stopping := rfl
@[simp] theorem Ctx.onCtl_notBefore (c : Ctx) (f : Ctl → Ctl) : (c.onCtl f).notBefore = c.notBefore := rfl
@[simp] theorem Ctx.onCtl_pre (c : Ctx) (f : Ctl → Ctl) : (c.onCtl f).pre = c.pre := rfl
@[simp] theorem Ctx.onCtl_mchk (c : Ctx) (f : Ctl → Ctl) : (c.onCtl f).mchk = c.mchk := rfl
@[simp] theorem Ctx.onCtl_preBank (c : Ctx) (f : Ctl → Ctl) : (c.onCtl f).preBank = c.preBank := rfl

/-! ### A core -/

@[simp] theorem Core.modCtx_on (k : Core) (c : Nat) (f : Ctx → Ctx) : (k.modCtx c f).on = k.on := rfl
@[simp] theorem Core.modCtx_cycle (k : Core) (c : Nat) (f : Ctx → Ctx) : (k.modCtx c f).cycle = k.cycle := rfl
@[simp] theorem Core.modCtx_cur (k : Core) (c : Nat) (f : Ctx → Ctx) : (k.modCtx c f).cur = k.cur := rfl
@[simp] theorem Core.modCtx_last (k : Core) (c : Nat) (f : Ctx → Ctx) : (k.modCtx c f).last = k.last := rfl
@[simp] theorem Core.modCtx_switch (k : Core) (c : Nat) (f : Ctx → Ctx) : (k.modCtx c f).switch = k.switch := rfl
@[simp] theorem Core.modCtx_spad (k : Core) (c : Nat) (f : Ctx → Ctx) : (k.modCtx c f).spad = k.spad := rfl
@[simp] theorem Core.modCtx_recent (k : Core) (c : Nat) (f : Ctx → Ctx) : (k.modCtx c f).recent = k.recent := rfl
@[simp] theorem Core.modCtx_accm (k : Core) (c : Nat) (f : Ctx → Ctx) : (k.modCtx c f).accm = k.accm := rfl
@[simp] theorem Core.modCtx_accOld (k : Core) (c : Nat) (f : Ctx → Ctx) : (k.modCtx c f).accOld = k.accOld := rfl
@[simp] theorem Core.modCtx_tags (k : Core) (c : Nat) (f : Ctx → Ctx) : (k.modCtx c f).tags = k.tags := rfl
@[simp] theorem Core.modCtx_tlb (k : Core) (c : Nat) (f : Ctx → Ctx) : (k.modCtx c f).tlb = k.tlb := rfl
@[simp] theorem Core.modCtx_arr (k : Core) (c : Nat) (f : Ctx → Ctx) : (k.modCtx c f).arr = k.arr := rfl
@[simp] theorem Core.modCtx_charge (k : Core) (c : Nat) (f : Ctx → Ctx) : (k.modCtx c f).charge = k.charge := rfl
@[simp] theorem Core.modCtx_lastBlk (k : Core) (c : Nat) (f : Ctx → Ctx) : (k.modCtx c f).lastBlk = k.lastBlk := rfl
@[simp] theorem Core.modCtx_busy (k : Core) (c : Nat) (f : Ctx → Ctx) : (k.modCtx c f).busy = k.busy := rfl
@[simp] theorem Core.modCtx_landed (k : Core) (c : Nat) (f : Ctx → Ctx) : (k.modCtx c f).landed = k.landed := rfl
@[simp] theorem Core.modCtx_errs (k : Core) (c : Nat) (f : Ctx → Ctx) : (k.modCtx c f).errs = k.errs := rfl
@[simp] theorem Core.modCtx_ctx (k : Core) (c : Nat) (f : Ctx → Ctx) : (k.modCtx c f).ctx c = f (k.ctx c) :=
  tget_tmod_same ..
theorem Core.modCtx_ctx_other (k : Core) {c d : Nat} (f : Ctx → Ctx) (h : d ≠ c) : (k.modCtx c f).ctx d = k.ctx d :=
  tget_tmod_other _ _ _ h

/-! ### The state: what an update of one core, or of one die, leaves alone -/

@[simp] theorem State.modCoreAt_dies (s : State) (l : Loc) (f : Core → Core) : (s.modCoreAt l f).dies = s.dies := rfl
@[simp] theorem State.modCoreAt_flash (s : State) (l : Loc) (f : Core → Core) : (s.modCoreAt l f).flash = s.flash := rfl
@[simp] theorem State.modCoreAt_regions (s : State) (l : Loc) (f : Core → Core) : (s.modCoreAt l f).regions = s.regions := rfl
@[simp] theorem State.modCoreAt_host (s : State) (l : Loc) (f : Core → Core) : (s.modCoreAt l f).host = s.host := rfl
@[simp] theorem State.modCoreAt_focus (s : State) (l : Loc) (f : Core → Core) : (s.modCoreAt l f).focus = s.focus := rfl
@[simp] theorem State.modCoreAt_sub (s : State) (l : Loc) (f : Core → Core) : (s.modCoreAt l f).sub = s.sub := rfl
@[simp] theorem State.modCoreAt_draw (s : State) (l : Loc) (f : Core → Core) : (s.modCoreAt l f).draw = s.draw := rfl
@[simp] theorem State.modCoreAt_agenda (s : State) (l : Loc) (f : Core → Core) : (s.modCoreAt l f).agenda = s.agenda := rfl
@[simp] theorem State.modCoreAt_todo (s : State) (l : Loc) (f : Core → Core) : (s.modCoreAt l f).todo = s.todo := rfl
@[simp] theorem State.modCoreAt_owed (s : State) (l : Loc) (f : Core → Core) : (s.modCoreAt l f).owed = s.owed := rfl

@[simp] theorem State.modCore_dies (s : State) (f : Core → Core) : (s.modCore f).dies = s.dies := rfl
@[simp] theorem State.modCore_flash (s : State) (f : Core → Core) : (s.modCore f).flash = s.flash := rfl
@[simp] theorem State.modCore_regions (s : State) (f : Core → Core) : (s.modCore f).regions = s.regions := rfl
@[simp] theorem State.modCore_host (s : State) (f : Core → Core) : (s.modCore f).host = s.host := rfl
@[simp] theorem State.modCore_focus (s : State) (f : Core → Core) : (s.modCore f).focus = s.focus := rfl
@[simp] theorem State.modCore_sub (s : State) (f : Core → Core) : (s.modCore f).sub = s.sub := rfl
@[simp] theorem State.modCore_draw (s : State) (f : Core → Core) : (s.modCore f).draw = s.draw := rfl
@[simp] theorem State.modCore_agenda (s : State) (f : Core → Core) : (s.modCore f).agenda = s.agenda := rfl
@[simp] theorem State.modCore_todo (s : State) (f : Core → Core) : (s.modCore f).todo = s.todo := rfl
@[simp] theorem State.modCore_owed (s : State) (f : Core → Core) : (s.modCore f).owed = s.owed := rfl

@[simp] theorem State.modCtxAt_dies (s : State) (l : Loc) (c : Nat) (f : Ctx → Ctx) : (s.modCtxAt l c f).dies = s.dies := rfl
@[simp] theorem State.modCtxAt_flash (s : State) (l : Loc) (c : Nat) (f : Ctx → Ctx) : (s.modCtxAt l c f).flash = s.flash := rfl
@[simp] theorem State.modCtxAt_regions (s : State) (l : Loc) (c : Nat) (f : Ctx → Ctx) : (s.modCtxAt l c f).regions = s.regions := rfl
@[simp] theorem State.modCtxAt_host (s : State) (l : Loc) (c : Nat) (f : Ctx → Ctx) : (s.modCtxAt l c f).host = s.host := rfl
@[simp] theorem State.modCtxAt_focus (s : State) (l : Loc) (c : Nat) (f : Ctx → Ctx) : (s.modCtxAt l c f).focus = s.focus := rfl
@[simp] theorem State.modCtxAt_sub (s : State) (l : Loc) (c : Nat) (f : Ctx → Ctx) : (s.modCtxAt l c f).sub = s.sub := rfl
@[simp] theorem State.modCtxAt_draw (s : State) (l : Loc) (c : Nat) (f : Ctx → Ctx) : (s.modCtxAt l c f).draw = s.draw := rfl
@[simp] theorem State.modCtxAt_agenda (s : State) (l : Loc) (c : Nat) (f : Ctx → Ctx) : (s.modCtxAt l c f).agenda = s.agenda := rfl
@[simp] theorem State.modCtxAt_todo (s : State) (l : Loc) (c : Nat) (f : Ctx → Ctx) : (s.modCtxAt l c f).todo = s.todo := rfl
@[simp] theorem State.modCtxAt_owed (s : State) (l : Loc) (c : Nat) (f : Ctx → Ctx) : (s.modCtxAt l c f).owed = s.owed := rfl

@[simp] theorem State.modCtx_dies (s : State) (f : Ctx → Ctx) : (s.modCtx f).dies = s.dies := rfl
@[simp] theorem State.modCtx_flash (s : State) (f : Ctx → Ctx) : (s.modCtx f).flash = s.flash := rfl
@[simp] theorem State.modCtx_regions (s : State) (f : Ctx → Ctx) : (s.modCtx f).regions = s.regions := rfl
@[simp] theorem State.modCtx_host (s : State) (f : Ctx → Ctx) : (s.modCtx f).host = s.host := rfl
@[simp] theorem State.modCtx_focus (s : State) (f : Ctx → Ctx) : (s.modCtx f).focus = s.focus := rfl
@[simp] theorem State.modCtx_sub (s : State) (f : Ctx → Ctx) : (s.modCtx f).sub = s.sub := rfl
@[simp] theorem State.modCtx_draw (s : State) (f : Ctx → Ctx) : (s.modCtx f).draw = s.draw := rfl
@[simp] theorem State.modCtx_agenda (s : State) (f : Ctx → Ctx) : (s.modCtx f).agenda = s.agenda := rfl
@[simp] theorem State.modCtx_todo (s : State) (f : Ctx → Ctx) : (s.modCtx f).todo = s.todo := rfl
@[simp] theorem State.modCtx_owed (s : State) (f : Ctx → Ctx) : (s.modCtx f).owed = s.owed := rfl

@[simp] theorem State.modPipe_dies (s : State) (f : Pipe → Pipe) : (s.modPipe f).dies = s.dies := rfl
@[simp] theorem State.modPipe_flash (s : State) (f : Pipe → Pipe) : (s.modPipe f).flash = s.flash := rfl
@[simp] theorem State.modPipe_regions (s : State) (f : Pipe → Pipe) : (s.modPipe f).regions = s.regions := rfl
@[simp] theorem State.modPipe_host (s : State) (f : Pipe → Pipe) : (s.modPipe f).host = s.host := rfl
@[simp] theorem State.modPipe_focus (s : State) (f : Pipe → Pipe) : (s.modPipe f).focus = s.focus := rfl
@[simp] theorem State.modPipe_sub (s : State) (f : Pipe → Pipe) : (s.modPipe f).sub = s.sub := rfl
@[simp] theorem State.modPipe_draw (s : State) (f : Pipe → Pipe) : (s.modPipe f).draw = s.draw := rfl
@[simp] theorem State.modPipe_agenda (s : State) (f : Pipe → Pipe) : (s.modPipe f).agenda = s.agenda := rfl
@[simp] theorem State.modPipe_todo (s : State) (f : Pipe → Pipe) : (s.modPipe f).todo = s.todo := rfl
@[simp] theorem State.modPipe_owed (s : State) (f : Pipe → Pipe) : (s.modPipe f).owed = s.owed := rfl

@[simp] theorem State.modQ_dies (s : State) (f : Queues → Queues) : (s.modQ f).dies = s.dies := rfl
@[simp] theorem State.modQ_flash (s : State) (f : Queues → Queues) : (s.modQ f).flash = s.flash := rfl
@[simp] theorem State.modQ_regions (s : State) (f : Queues → Queues) : (s.modQ f).regions = s.regions := rfl
@[simp] theorem State.modQ_host (s : State) (f : Queues → Queues) : (s.modQ f).host = s.host := rfl
@[simp] theorem State.modQ_focus (s : State) (f : Queues → Queues) : (s.modQ f).focus = s.focus := rfl
@[simp] theorem State.modQ_sub (s : State) (f : Queues → Queues) : (s.modQ f).sub = s.sub := rfl
@[simp] theorem State.modQ_draw (s : State) (f : Queues → Queues) : (s.modQ f).draw = s.draw := rfl
@[simp] theorem State.modQ_agenda (s : State) (f : Queues → Queues) : (s.modQ f).agenda = s.agenda := rfl
@[simp] theorem State.modQ_todo (s : State) (f : Queues → Queues) : (s.modQ f).todo = s.todo := rfl
@[simp] theorem State.modQ_owed (s : State) (f : Queues → Queues) : (s.modQ f).owed = s.owed := rfl

@[simp] theorem State.modRegs_dies (s : State) (f : Regs → Regs) : (s.modRegs f).dies = s.dies := rfl
@[simp] theorem State.modRegs_flash (s : State) (f : Regs → Regs) : (s.modRegs f).flash = s.flash := rfl
@[simp] theorem State.modRegs_regions (s : State) (f : Regs → Regs) : (s.modRegs f).regions = s.regions := rfl
@[simp] theorem State.modRegs_host (s : State) (f : Regs → Regs) : (s.modRegs f).host = s.host := rfl
@[simp] theorem State.modRegs_focus (s : State) (f : Regs → Regs) : (s.modRegs f).focus = s.focus := rfl
@[simp] theorem State.modRegs_sub (s : State) (f : Regs → Regs) : (s.modRegs f).sub = s.sub := rfl
@[simp] theorem State.modRegs_draw (s : State) (f : Regs → Regs) : (s.modRegs f).draw = s.draw := rfl
@[simp] theorem State.modRegs_agenda (s : State) (f : Regs → Regs) : (s.modRegs f).agenda = s.agenda := rfl
@[simp] theorem State.modRegs_todo (s : State) (f : Regs → Regs) : (s.modRegs f).todo = s.todo := rfl
@[simp] theorem State.modRegs_owed (s : State) (f : Regs → Regs) : (s.modRegs f).owed = s.owed := rfl

@[simp] theorem State.modSys_dies (s : State) (f : Sys → Sys) : (s.modSys f).dies = s.dies := rfl
@[simp] theorem State.modSys_flash (s : State) (f : Sys → Sys) : (s.modSys f).flash = s.flash := rfl
@[simp] theorem State.modSys_regions (s : State) (f : Sys → Sys) : (s.modSys f).regions = s.regions := rfl
@[simp] theorem State.modSys_host (s : State) (f : Sys → Sys) : (s.modSys f).host = s.host := rfl
@[simp] theorem State.modSys_focus (s : State) (f : Sys → Sys) : (s.modSys f).focus = s.focus := rfl
@[simp] theorem State.modSys_sub (s : State) (f : Sys → Sys) : (s.modSys f).sub = s.sub := rfl
@[simp] theorem State.modSys_draw (s : State) (f : Sys → Sys) : (s.modSys f).draw = s.draw := rfl
@[simp] theorem State.modSys_agenda (s : State) (f : Sys → Sys) : (s.modSys f).agenda = s.agenda := rfl
@[simp] theorem State.modSys_todo (s : State) (f : Sys → Sys) : (s.modSys f).todo = s.todo := rfl
@[simp] theorem State.modSys_owed (s : State) (f : Sys → Sys) : (s.modSys f).owed = s.owed := rfl

@[simp] theorem State.modCtl_dies (s : State) (f : Ctl → Ctl) : (s.modCtl f).dies = s.dies := rfl
@[simp] theorem State.modCtl_flash (s : State) (f : Ctl → Ctl) : (s.modCtl f).flash = s.flash := rfl
@[simp] theorem State.modCtl_regions (s : State) (f : Ctl → Ctl) : (s.modCtl f).regions = s.regions := rfl
@[simp] theorem State.modCtl_host (s : State) (f : Ctl → Ctl) : (s.modCtl f).host = s.host := rfl
@[simp] theorem State.modCtl_focus (s : State) (f : Ctl → Ctl) : (s.modCtl f).focus = s.focus := rfl
@[simp] theorem State.modCtl_sub (s : State) (f : Ctl → Ctl) : (s.modCtl f).sub = s.sub := rfl
@[simp] theorem State.modCtl_draw (s : State) (f : Ctl → Ctl) : (s.modCtl f).draw = s.draw := rfl
@[simp] theorem State.modCtl_agenda (s : State) (f : Ctl → Ctl) : (s.modCtl f).agenda = s.agenda := rfl
@[simp] theorem State.modCtl_todo (s : State) (f : Ctl → Ctl) : (s.modCtl f).todo = s.todo := rfl
@[simp] theorem State.modCtl_owed (s : State) (f : Ctl → Ctl) : (s.modCtl f).owed = s.owed := rfl

@[simp] theorem State.modArr_dies (s : State) (f : Arr → Arr) : (s.modArr f).dies = s.dies := rfl
@[simp] theorem State.modArr_flash (s : State) (f : Arr → Arr) : (s.modArr f).flash = s.flash := rfl
@[simp] theorem State.modArr_regions (s : State) (f : Arr → Arr) : (s.modArr f).regions = s.regions := rfl
@[simp] theorem State.modArr_host (s : State) (f : Arr → Arr) : (s.modArr f).host = s.host := rfl
@[simp] theorem State.modArr_focus (s : State) (f : Arr → Arr) : (s.modArr f).focus = s.focus := rfl
@[simp] theorem State.modArr_sub (s : State) (f : Arr → Arr) : (s.modArr f).sub = s.sub := rfl
@[simp] theorem State.modArr_draw (s : State) (f : Arr → Arr) : (s.modArr f).draw = s.draw := rfl
@[simp] theorem State.modArr_agenda (s : State) (f : Arr → Arr) : (s.modArr f).agenda = s.agenda := rfl
@[simp] theorem State.modArr_todo (s : State) (f : Arr → Arr) : (s.modArr f).todo = s.todo := rfl
@[simp] theorem State.modArr_owed (s : State) (f : Arr → Arr) : (s.modArr f).owed = s.owed := rfl

@[simp] theorem State.modDieAt_cores (s : State) (p d : Nat) (f : Die → Die) : (s.modDieAt p d f).cores = s.cores := rfl
@[simp] theorem State.modDieAt_flash (s : State) (p d : Nat) (f : Die → Die) : (s.modDieAt p d f).flash = s.flash := rfl
@[simp] theorem State.modDieAt_regions (s : State) (p d : Nat) (f : Die → Die) : (s.modDieAt p d f).regions = s.regions := rfl
@[simp] theorem State.modDieAt_host (s : State) (p d : Nat) (f : Die → Die) : (s.modDieAt p d f).host = s.host := rfl
@[simp] theorem State.modDieAt_focus (s : State) (p d : Nat) (f : Die → Die) : (s.modDieAt p d f).focus = s.focus := rfl
@[simp] theorem State.modDieAt_sub (s : State) (p d : Nat) (f : Die → Die) : (s.modDieAt p d f).sub = s.sub := rfl
@[simp] theorem State.modDieAt_draw (s : State) (p d : Nat) (f : Die → Die) : (s.modDieAt p d f).draw = s.draw := rfl
@[simp] theorem State.modDieAt_agenda (s : State) (p d : Nat) (f : Die → Die) : (s.modDieAt p d f).agenda = s.agenda := rfl
@[simp] theorem State.modDieAt_todo (s : State) (p d : Nat) (f : Die → Die) : (s.modDieAt p d f).todo = s.todo := rfl
@[simp] theorem State.modDieAt_owed (s : State) (p d : Nat) (f : Die → Die) : (s.modDieAt p d f).owed = s.owed := rfl

@[simp] theorem State.modDie_cores (s : State) (f : Die → Die) : (s.modDie f).cores = s.cores := rfl
@[simp] theorem State.modDie_flash (s : State) (f : Die → Die) : (s.modDie f).flash = s.flash := rfl
@[simp] theorem State.modDie_regions (s : State) (f : Die → Die) : (s.modDie f).regions = s.regions := rfl
@[simp] theorem State.modDie_host (s : State) (f : Die → Die) : (s.modDie f).host = s.host := rfl
@[simp] theorem State.modDie_focus (s : State) (f : Die → Die) : (s.modDie f).focus = s.focus := rfl
@[simp] theorem State.modDie_sub (s : State) (f : Die → Die) : (s.modDie f).sub = s.sub := rfl
@[simp] theorem State.modDie_draw (s : State) (f : Die → Die) : (s.modDie f).draw = s.draw := rfl
@[simp] theorem State.modDie_agenda (s : State) (f : Die → Die) : (s.modDie f).agenda = s.agenda := rfl
@[simp] theorem State.modDie_todo (s : State) (f : Die → Die) : (s.modDie f).todo = s.todo := rfl
@[simp] theorem State.modDie_owed (s : State) (f : Die → Die) : (s.modDie f).owed = s.owed := rfl

@[simp] theorem State.post_cores (s : State) (l : Loc) (c : Nat) (i : Instr) : (s.post l c i).cores = s.cores := rfl
@[simp] theorem State.post_dies (s : State) (l : Loc) (c : Nat) (i : Instr) : (s.post l c i).dies = s.dies := rfl
@[simp] theorem State.post_flash (s : State) (l : Loc) (c : Nat) (i : Instr) : (s.post l c i).flash = s.flash := rfl
@[simp] theorem State.post_regions (s : State) (l : Loc) (c : Nat) (i : Instr) : (s.post l c i).regions = s.regions := rfl
@[simp] theorem State.post_host (s : State) (l : Loc) (c : Nat) (i : Instr) : (s.post l c i).host = s.host := rfl
@[simp] theorem State.post_focus (s : State) (l : Loc) (c : Nat) (i : Instr) : (s.post l c i).focus = s.focus := rfl
@[simp] theorem State.post_sub (s : State) (l : Loc) (c : Nat) (i : Instr) : (s.post l c i).sub = s.sub := rfl
@[simp] theorem State.post_draw (s : State) (l : Loc) (c : Nat) (i : Instr) : (s.post l c i).draw = s.draw := rfl
@[simp] theorem State.post_agenda (s : State) (l : Loc) (c : Nat) (i : Instr) : (s.post l c i).agenda = s.agenda := rfl
@[simp] theorem State.post_owed (s : State) (l : Loc) (c : Nat) (i : Instr) : (s.post l c i).owed = s.owed := rfl
@[simp] theorem State.post_todo (s : State) (l : Loc) (c : Nat) (i : Instr) : (s.post l c i).todo = s.todo ++ [⟨l, c, i⟩] := rfl

/-! ### The state: what an update of one core, context or die gives there -/

@[simp] theorem State.coreAt_modCoreAt (s : State) (l : Loc) (f : Core → Core) : (s.modCoreAt l f).coreAt l = f (s.coreAt l) :=
  tget_tmod_same ..
theorem State.coreAt_modCoreAt_other (s : State) {l m : Loc} (f : Core → Core) (h : locKey m ≠ locKey l) :
    (s.modCoreAt l f).coreAt m = s.coreAt m := tget_tmod_other _ _ _ h
@[simp] theorem State.core_modCore (s : State) (f : Core → Core) : (s.modCore f).core = f s.core := tget_tmod_same ..
@[simp] theorem State.ctx_modCtx (s : State) (f : Ctx → Ctx) : (s.modCtx f).ctx = f s.ctx := by
  show ((s.modCore fun k => k.modCtx s.sub f).core).ctx s.sub = _
  rw [State.core_modCore, Core.modCtx_ctx]; rfl
@[simp] theorem State.core_modCtx (s : State) (f : Ctx → Ctx) : (s.modCtx f).core = s.core.modCtx s.sub f := by
  show (s.modCore fun k => k.modCtx s.sub f).core = _
  rw [State.core_modCore]
theorem State.ctxAt_modCtx_other (s : State) (f : Ctx → Ctx) (l : Loc) (c : Nat) (h : locKey l ≠ locKey s.focus ∨ c ≠ s.sub) :
    (s.modCtx f).ctxAt l c = s.ctxAt l c := by
  show ((s.modCoreAt s.focus fun k => k.modCtx s.sub f).coreAt l).ctx c = (s.coreAt l).ctx c
  by_cases hl : locKey l = locKey s.focus
  · have e : ∀ t : State, t.coreAt l = t.coreAt s.focus := fun t => by simp only [State.coreAt, hl]
    rw [e, State.coreAt_modCoreAt, e, Core.modCtx_ctx_other _ _ (by simp_all)]
  · rw [State.coreAt_modCoreAt_other _ _ hl]
@[simp] theorem State.ctx_modPipe (s : State) (f : Pipe → Pipe) : (s.modPipe f).ctx = s.ctx.onPipe f := State.ctx_modCtx ..
@[simp] theorem State.ctx_modQ (s : State) (f : Queues → Queues) : (s.modQ f).ctx = s.ctx.onQ f := State.ctx_modCtx ..
@[simp] theorem State.ctx_modRegs (s : State) (f : Regs → Regs) : (s.modRegs f).ctx = s.ctx.onRegs f := State.ctx_modCtx ..
@[simp] theorem State.ctx_modSys (s : State) (f : Sys → Sys) : (s.modSys f).ctx = s.ctx.onSys f := State.ctx_modCtx ..
@[simp] theorem State.ctx_modCtl (s : State) (f : Ctl → Ctl) : (s.modCtl f).ctx = s.ctx.onCtl f := State.ctx_modCtx ..
@[simp] theorem State.core_modArr (s : State) (f : Arr → Arr) : (s.modArr f).core = { s.core with arr := f s.core.arr } :=
  State.core_modCore ..
@[simp] theorem State.dieAt_modDieAt (s : State) (p d : Nat) (f : Die → Die) : (s.modDieAt p d f).dieAt p d = f (s.dieAt p d) :=
  tget_tmod_same ..
theorem State.dieAt_modDieAt_other (s : State) {p d q e : Nat} (f : Die → Die) (h : dieKey q e ≠ dieKey p d) :
    (s.modDieAt p d f).dieAt q e = s.dieAt q e := tget_tmod_other _ _ _ h
@[simp] theorem State.die_modDie (s : State) (f : Die → Die) : (s.modDie f).die = f s.die := tget_tmod_same ..

@[simp] theorem State.modCoreAt_dieAt (s : State) (l : Loc) (f : Core → Core) (x y : Nat) : (s.modCoreAt l f).dieAt x y = s.dieAt x y := rfl
@[simp] theorem State.modCore_dieAt (s : State) (f : Core → Core) (x y : Nat) : (s.modCore f).dieAt x y = s.dieAt x y := rfl
@[simp] theorem State.modCtxAt_dieAt (s : State) (l : Loc) (c : Nat) (f : Ctx → Ctx) (x y : Nat) : (s.modCtxAt l c f).dieAt x y = s.dieAt x y := rfl
@[simp] theorem State.modCtx_dieAt (s : State) (f : Ctx → Ctx) (x y : Nat) : (s.modCtx f).dieAt x y = s.dieAt x y := rfl
@[simp] theorem State.modPipe_dieAt (s : State) (f : Pipe → Pipe) (x y : Nat) : (s.modPipe f).dieAt x y = s.dieAt x y := rfl
@[simp] theorem State.modQ_dieAt (s : State) (f : Queues → Queues) (x y : Nat) : (s.modQ f).dieAt x y = s.dieAt x y := rfl
@[simp] theorem State.modRegs_dieAt (s : State) (f : Regs → Regs) (x y : Nat) : (s.modRegs f).dieAt x y = s.dieAt x y := rfl
@[simp] theorem State.modSys_dieAt (s : State) (f : Sys → Sys) (x y : Nat) : (s.modSys f).dieAt x y = s.dieAt x y := rfl
@[simp] theorem State.modCtl_dieAt (s : State) (f : Ctl → Ctl) (x y : Nat) : (s.modCtl f).dieAt x y = s.dieAt x y := rfl
@[simp] theorem State.modArr_dieAt (s : State) (f : Arr → Arr) (x y : Nat) : (s.modArr f).dieAt x y = s.dieAt x y := rfl
@[simp] theorem State.modDieAt_coreAt (s : State) (p d : Nat) (f : Die → Die) (m : Loc) : (s.modDieAt p d f).coreAt m = s.coreAt m := rfl
@[simp] theorem State.modDie_coreAt (s : State) (f : Die → Die) (m : Loc) : (s.modDie f).coreAt m = s.coreAt m := rfl
@[simp] theorem State.post_coreAt (s : State) (l : Loc) (c : Nat) (i : Instr) (m : Loc) : (s.post l c i).coreAt m = s.coreAt m := rfl

end Sys2Proof.Machine
end

