-- ==== Sys2Proof/Laws/Ops.lean ====
section
/-! SUPPORT. What each shared operation does, in the words of Safety, and what it leaves alone. -/

namespace Sys2Proof.Machine

/-! ### Slots under qualifier, guard and block -/

theorem slot_issued {q : BitVec 2} {s : State} (f : State → State) (h : s.qIssues q = true) : slot q s f = .next (f s) := by
  simp [slot, h]
theorem slot_not_issued {q : BitVec 2} {s : State} (f : State → State) (h : s.qIssues q = false) : slot q s f = .next s := by
  simp [slot, h]
/-- A slot always answers a next state. -/
theorem slot_next (q : BitVec 2) (s : State) (f : State → State) : slot q s f = .next s ∨ slot q s f = .next (f s) := by
  cases h : s.qIssues q
  · exact .inl (slot_not_issued f h)
  · exact .inr (slot_issued f h)

theorem slotOr_runs {q : BitVec 2} {s : State} {b : State → Bool} (f : State → State) (h : s.qIssues q = true) (hb : b s = false) :
    slotOr q s b f = .next (f s) := by simp [slotOr, slot, h, hb]
theorem slotOr_blocked {q : BitVec 2} {s : State} {b : State → Bool} (f : State → State) (hb : b s = true) : slotOr q s b f = .next s := by
  simp [slotOr, slot, hb]

theorem guarded_true {h : Hd} {g : BitVec 2} {s : State} (f : State → State) (hq : s.qIssues h.q = true) (hg : s.rp g.toNat = true) :
    guarded h g s f = .next (f s) := by simp [guarded, slot, hq, hg]
theorem guarded_false {h : Hd} {g : BitVec 2} {s : State} (f : State → State) (hg : s.rp g.toNat = false) : guarded h g s f = .next s := by
  simp [guarded, slot, hg]

/-! ### Two updates of one place -/

theorem tset_tset {α : Type} (t : Tab α) (n : Nat) (x y : α) : tset (tset t n x) n y = tset t n y := by
  induction t with
  | nil => simp [tset]
  | cons e t ih =>
    obtain ⟨k, v⟩ := e
    simp only [tset]
    split
    · simp [tset]
    · split
      · simp [tset]
      · rename_i h1 h2
        simp [tset, h1, h2, ih]

@[simp] theorem tmod_tmod {α : Type} (d : α) (t : Tab α) (n : Nat) (f g : α → α) : tmod d (tmod d t n f) n g = tmod d t n fun x => g (f x) := by
  simp [tmod, tset_tset]

@[simp] theorem State.modCoreAt_modCoreAt (s : State) (l : Loc) (f g : Core → Core) :
    (s.modCoreAt l f).modCoreAt l g = s.modCoreAt l fun k => g (f k) := by simp [State.modCoreAt]
@[simp] theorem State.modCore_modCore (s : State) (f g : Core → Core) : (s.modCore f).modCore g = s.modCore fun k => g (f k) :=
  State.modCoreAt_modCoreAt ..
@[simp] theorem Core.modCtx_modCtx (k : Core) (c : Nat) (f g : Ctx → Ctx) : (k.modCtx c f).modCtx c g = k.modCtx c fun x => g (f x) := by
  simp [Core.modCtx]
/-- Two updates of the context in focus are one. -/
@[simp] theorem State.modCtx_modCtx (s : State) (f g : Ctx → Ctx) : (s.modCtx f).modCtx g = s.modCtx fun c => g (f c) := by
  show (s.modCore fun k => k.modCtx s.sub f).modCore (fun k => k.modCtx s.sub g) = _
  simp [State.modCtx]
/-- Updates of the context in focus that agree on it are one. -/
theorem State.modCtx_congr {s : State} {f g : Ctx → Ctx} (h : f s.ctx = g s.ctx) : s.modCtx f = s.modCtx g := by
  have e : s.core.modCtx s.sub f = s.core.modCtx s.sub g := by
    simp only [Core.modCtx, tmod]; rw [show f (tget Ctx.reset s.core.ctxs s.sub) = g (tget Ctx.reset s.core.ctxs s.sub) from h]
  simp only [State.modCtx, State.modCore, State.modCoreAt, tmod]
  rw [show (tget Core.reset s.cores (locKey s.focus)).modCtx s.sub f = (tget Core.reset s.cores (locKey s.focus)).modCtx s.sub g from e]

/-! ### Faults, results, writes and withheld effects -/

/-- A fault found where the bundle has found none so far. -/
theorem State.raise_faults {s : State} (code faddr : Nat) (h : s.ctx.pipe.fault = none) : Faults s (s.raise code faddr) code faddr :=
  State.modCtx_congr (by simp [h])
/-- A fault found after another of the bundle changes nothing. -/
theorem State.raise_again {s : State} (code faddr : Nat) {f : Found} (h : s.ctx.pipe.fault = some f) :
    (s.raise code faddr).ctx = s.ctx := by simp [State.raise, h]

theorem State.cyc_logUndo (s : State) (r : RegId) : (s.logUndo r).cyc = s.cyc := by
  simp only [State.logUndo, State.cyc]; split <;> simp

/-- A result with room in the undo log. -/
theorem State.result_sends {s : State} {r : RegId} (lat : Nat) (v : RegVal) (fl : Nat) (flags : Flags) (h : Room s [r]) :
    Sends s (s.result lat r v fl flags) lat r v fl flags := by
  rw [Room] at h
  simp only [Sends, State.result, h, State.send, State.cyc_logUndo, State.modPipe, if_neg (Bool.false_ne_true)]
  by_cases hl : s.ctx.pipe.logs r = true
  · simp only [State.logUndo, hl, if_true, State.modCtx_modCtx]
    exact State.modCtx_congr (by simp [State.undoWith, hl, State.resultOf, Ctx.onPipe])
  · simp only [State.logUndo, hl]
    exact State.modCtx_congr (by simp [State.undoWith, hl, State.resultOf, Ctx.onPipe])
/-- A result without room in the undo log is the fault 0x0206 (R81). -/
theorem State.result_full {s : State} {r : RegId} (lat : Nat) (v : RegVal) (fl : Nat) (flags : Flags) (h : s.undoFull [r] = true) :
    s.result lat r v fl flags = s.raise 0x0206 := by simp [State.result, h]

/-- A register written at issue with room in the undo log. -/
theorem State.writeNow_writes {s : State} {r : RegId} (v : RegVal) (h : Room s [r]) : Writes s (s.writeNow r v) r v := by
  rw [Room] at h
  simp only [Writes, State.writeNow, h, if_neg (Bool.false_ne_true), State.modRegs]
  by_cases hl : s.ctx.pipe.logs r = true
  · simp only [State.logUndo, hl, if_true, State.modCtx_modCtx]
    exact State.modCtx_congr (by simp [State.undoWith, hl, Ctx.onRegs, Ctx.onPipe])
  · simp only [State.logUndo, hl]
    exact State.modCtx_congr (by simp [State.undoWith, hl, Ctx.onRegs])
theorem State.writeNow_full {s : State} {r : RegId} (v : RegVal) (h : s.undoFull [r] = true) : s.writeNow r v = s.raise 0x0206 := by
  simp [State.writeNow, h]

/-- An effect withheld with room in the buffer. -/
theorem State.withhold_withholds {s : State} (e : Eff) (h : s.ctx.pipe.held.length < 256) :
    Withholds s (s.withhold e) e ∧ (s.withhold e).ctx.q = { s.ctx.q with nextId := s.ctx.q.nextId + 1 } ∧
      (s.withhold e).ctx.regs = s.ctx.regs ∧ (s.withhold e).ctx.sys = s.ctx.sys := by
  simp [Withholds, State.withhold, Nat.not_le.mpr h, State.heldEntry]
theorem State.withhold_full {s : State} (e : Eff) (h : 256 ≤ s.ctx.pipe.held.length) : s.withhold e = s.raise 0x0205 := by
  simp [State.withhold, h]

/-- A checkpoint bundle's effect, with room and with no failed store to report. -/
theorem State.ckptBundle_awaits {s : State} (e : Eff) (h : s.ctx.pipe.held.length < 256) (hd : ∀ d ∈ s.ctx.q.deferred, d.ctr ≠ 5) :
    Awaits s (s.ckptBundle e) e := by
  have hf : s.ctx.q.firstDeferred (fun d => d.ctr == 5) = none := by
    have : s.ctx.q.deferred.filter (fun d => d.ctr == 5) = [] := List.filter_eq_nil_iff.mpr fun d hm => by simpa using hd d hm
    simp [Queues.firstDeferred, this, firstOf]
  have hn : s.holdFull = false := by simp [State.holdFull, h]
  have hw : s.ckptBundle e = ((s.withhold e).markCkpt).modCtx fun c => c.onPipe fun p => { p with wait := p.wait ++ [⟨p.ser, c.slotVa, c.cur.pos, e⟩] } := by
    simp [State.ckptBundle, State.orDeferred, hf, hn]
  obtain ⟨hh, -, -, -⟩ := State.withhold_withholds e h
  have hs : (s.withhold e).ctx.pipe.ser = s.ctx.pipe.ser ∧ (s.withhold e).ctx.cur = s.ctx.cur ∧ (s.withhold e).ctx.ctl = s.ctx.ctl ∧
      (s.withhold e).ctx.pipe.wait = s.ctx.pipe.wait := by
    simp [State.withhold, Nat.not_le.mpr h]
  rw [hw]
  simp only [Awaits, Withholds, State.markCkpt, State.ctx_modCtx, State.ctx_modPipe, Ctx.onPipe] at *
  split <;> simp_all [Ctx.slotVa]

/-! ### What an update of the context in focus leaves alone -/

theorem State.dieAt_modCtx (s : State) (f : Ctx → Ctx) (p d : Nat) : (s.modCtx f).dieAt p d = s.dieAt p d := rfl

theorem State.coreAt_modCtx (s : State) (f : Ctx → Ctx) (l : Loc) :
    (s.modCtx f).coreAt l = if locKey l = locKey s.focus then s.core.modCtx s.sub f else s.coreAt l := by
  show (s.modCoreAt s.focus fun k => k.modCtx s.sub f).coreAt l = _
  split
  · rename_i h
    rw [show (s.modCoreAt s.focus fun k => k.modCtx s.sub f).coreAt l = (s.modCoreAt s.focus fun k => k.modCtx s.sub f).coreAt s.focus by
      simp only [State.coreAt, h], State.coreAt_modCoreAt]; rfl
  · rename_i h; exact State.coreAt_modCoreAt_other s _ h

theorem State.coreAt_focus {s : State} {l : Loc} (h : locKey l = locKey s.focus) : s.coreAt l = s.core := by
  simp only [State.core, State.coreAt, h]

theorem sameSpad_modCtx (s : State) (f : Ctx → Ctx) : SameSpad s (s.modCtx f) := by
  intro l a
  rw [State.coreAt_modCtx]
  split
  · rename_i h; rw [State.coreAt_focus h]; rfl
  · rfl
theorem sameAccm_modCtx (s : State) (f : Ctx → Ctx) : SameAccm s (s.modCtx f) := by
  intro l a
  rw [State.coreAt_modCtx]
  split
  · rename_i h; rw [State.coreAt_focus h]; rfl
  · rfl
theorem sameGlobal_modCtx (s : State) (f : Ctx → Ctx) : SameGlobal s (s.modCtx f) := ⟨fun _ _ => rfl, fun _ => rfl⟩
theorem sameDevices_modCtx (s : State) (f : Ctx → Ctx) : SameDevices s (s.modCtx f) := ⟨rfl, rfl, rfl⟩
theorem sameUnits_modCtx (s : State) (f : Ctx → Ctx) : SameUnits s (s.modCtx f) := by
  intro l
  rw [State.coreAt_modCtx]
  split
  · rename_i h; rw [State.coreAt_focus h]; exact ⟨rfl, rfl, rfl⟩
  · exact ⟨rfl, rfl, rfl⟩

theorem State.ctxAt_modCtx (s : State) (f : Ctx → Ctx) (l : Loc) (c : Nat) :
    (s.modCtx f).ctxAt l c = if locKey l = locKey s.focus ∧ c = s.sub then f s.ctx else s.ctxAt l c := by
  split
  · rename_i h
    obtain ⟨h, rfl⟩ := h
    show ((s.modCtx f).coreAt l).ctx s.sub = _
    rw [State.coreAt_modCtx, if_pos h, Core.modCtx_ctx]; rfl
  · rename_i h
    exact State.ctxAt_modCtx_other s f l c (by omega)

theorem sameRegs_modCtx {s : State} {f : Ctx → Ctx} (h : (f s.ctx).regs = s.ctx.regs) : SameRegs s (s.modCtx f) := by
  intro l c
  rw [State.ctxAt_modCtx]
  split
  · rename_i e; rw [h]; obtain ⟨e, rfl⟩ := e; simp only [State.ctxAt, State.ctx, State.coreAt_focus e]
  · rfl
theorem sameSys_modCtx {s : State} {f : Ctx → Ctx} (h : (f s.ctx).sys = s.ctx.sys) : SameSys s (s.modCtx f) := by
  intro l c
  rw [State.ctxAt_modCtx]
  split
  · rename_i e; rw [h]; obtain ⟨e, rfl⟩ := e; simp only [State.ctxAt, State.ctx, State.coreAt_focus e]
  · rfl

/-- A slot that only sends a result leaves everything but the context's results in flight and undo log alone. -/
theorem Sends.frame {s t : State} {lat : Nat} {r : RegId} {v : RegVal} {fl : Nat} {flags : Flags} (h : Sends s t lat r v fl flags) :
    SameRegs s t ∧ SameSys s t ∧ SameSpad s t ∧ SameAccm s t ∧ SameGlobal s t ∧ SameUnits s t ∧ SameDevices s t := by
  subst h
  exact ⟨sameRegs_modCtx rfl, sameSys_modCtx rfl, sameSpad_modCtx _ _, sameAccm_modCtx _ _, sameGlobal_modCtx _ _, sameUnits_modCtx _ _, sameDevices_modCtx _ _⟩
/-- A slot that only finds a fault leaves everything but the fault alone. -/
theorem Faults.frame {s t : State} {code faddr : Nat} (h : Faults s t code faddr) :
    SameRegs s t ∧ SameSys s t ∧ SameSpad s t ∧ SameAccm s t ∧ SameGlobal s t ∧ SameUnits s t ∧ SameDevices s t := by
  subst h
  exact ⟨sameRegs_modCtx rfl, sameSys_modCtx rfl, sameSpad_modCtx _ _, sameAccm_modCtx _ _, sameGlobal_modCtx _ _, sameUnits_modCtx _ _, sameDevices_modCtx _ _⟩
/-- A slot that only writes a register leaves the rest of the machine alone. -/
theorem Writes.frame {s t : State} {r : RegId} {v : RegVal} (h : Writes s t r v) :
    SameSys s t ∧ SameSpad s t ∧ SameAccm s t ∧ SameGlobal s t ∧ SameUnits s t ∧ SameDevices s t := by
  subst h
  exact ⟨sameSys_modCtx rfl, sameSpad_modCtx _ _, sameAccm_modCtx _ _, sameGlobal_modCtx _ _, sameUnits_modCtx _ _, sameDevices_modCtx _ _⟩

/-! ### Registers read back -/

/-- A vector, s, p, mask or tile-mask register reads as what was put in it, at its width. -/
theorem Regs.get_put_same (g : Regs) (r : RegId) (x : Nat) (h : ∃ n, r = .s n ∨ r = .p n ∨ (∃ c, r = .v c n) ∨ (∃ c, r = .k c n) ∨ r = .tm n) :
    ((g.put r (.bits x)).get r).num = x % match r with | .s _ => 2 ^ 64 | .p _ => 2 | .k .. => 2 ^ 256 | _ => 2 ^ 1024 := by
  obtain ⟨n, rfl | rfl | ⟨c, rfl⟩ | ⟨c, rfl⟩ | rfl⟩ := h
  · simp [Regs.put, Regs.get, RegVal.num]
  · simp only [Regs.put, Regs.get, RegVal.num, tget_tset_same]
    rcases Nat.mod_two_eq_zero_or_one x with h | h <;> simp [h]
  · cases c <;> simp [Regs.put, Regs.get, RegVal.num]
  · cases c <;> simp [Regs.put, Regs.get, RegVal.num]
  · simp [Regs.put, Regs.get, RegVal.num]

/-! ### Every memory operation keeps the canonical form -/

theorem tset_all {α : Type} {P : Nat × α → Prop} {t : Tab α} {n : Nat} {x : α} (h : ∀ e ∈ t, P e) (hx : P (n, x)) : ∀ e ∈ tset t n x, P e := by
  induction t with
  | nil => simpa [tset] using hx
  | cons e t ih =>
    obtain ⟨k, v⟩ := e
    have h1 := h (k, v) (by simp)
    have h2 : ∀ e ∈ t, P e := fun e m => h e (by simp [m])
    intro e m
    simp only [tset] at m
    split at m
    · rcases List.mem_cons.mp m with rfl | m
      · exact hx
      · exact h e m
    · split at m
      · rcases List.mem_cons.mp m with rfl | m
        · exact hx
        · exact h2 e m
      · rcases List.mem_cons.mp m with rfl | m
        · exact h1
        · exact ih h2 e m

theorem tget_all {α : Type} {P : α → Prop} {t : Tab α} {d : α} (h : ∀ e ∈ t, P e.2) (hd : P d) (n : Nat) : P (tget d t n) := by
  induction t with
  | nil => exact hd
  | cons e t ih =>
    obtain ⟨k, v⟩ := e
    simp only [tget]
    split
    · exact h (k, v) (by simp)
    · exact ih fun e m => h e (by simp [m])

theorem State.memoriesWf_reset : State.reset.memoriesWf := by refine ⟨?_, ?_, rfl⟩ <;> intro e h <;> cases h

/-- The memories of a core in a canonical state are canonical. -/
theorem State.memoriesWf.core {s : State} (h : s.memoriesWf) (l : Loc) : Memory.wf (s.coreAt l).spad = true ∧ Memory.wf (s.coreAt l).accm = true :=
  tget_all (P := fun k : Core => Memory.wf k.spad = true ∧ Memory.wf k.accm = true) h.1 ⟨rfl, rfl⟩ _
/-- The memories of a die in a canonical state are canonical. -/
theorem State.memoriesWf.die {s : State} (h : s.memoriesWf) (p d : Nat) :
    Memory.wf (s.dieAt p d).store.mem = true ∧ Memory.wf (s.dieAt p d).bootwin = true :=
  tget_all (P := fun k : Die => Memory.wf k.store.mem = true ∧ Memory.wf k.bootwin = true) h.2.1 ⟨rfl, rfl⟩ _

/-- An update of a core keeps the form where its local memories keep it. -/
theorem State.memoriesWf.modCoreAt {s : State} (h : s.memoriesWf) (l : Loc) {f : Core → Core}
    (hf : Memory.wf (f (s.coreAt l)).spad = true ∧ Memory.wf (f (s.coreAt l)).accm = true) : (s.modCoreAt l f).memoriesWf :=
  ⟨tset_all (P := fun e : Nat × Core => Memory.wf e.2.spad = true ∧ Memory.wf e.2.accm = true) h.1 hf, h.2⟩
theorem State.memoriesWf.modCore {s : State} (h : s.memoriesWf) {f : Core → Core}
    (hf : Memory.wf (f s.core).spad = true ∧ Memory.wf (f s.core).accm = true) : (s.modCore f).memoriesWf := h.modCoreAt s.focus hf
/-- An update of a die keeps the form where its memories keep it. -/
theorem State.memoriesWf.modDieAt {s : State} (h : s.memoriesWf) (p d : Nat) {f : Die → Die}
    (hf : Memory.wf (f (s.dieAt p d)).store.mem = true ∧ Memory.wf (f (s.dieAt p d)).bootwin = true) : (s.modDieAt p d f).memoriesWf :=
  ⟨h.1, tset_all (P := fun e : Nat × Die => Memory.wf e.2.store.mem = true ∧ Memory.wf e.2.bootwin = true) h.2.1 hf, h.2.2⟩
/-- An update of a context keeps the form. -/
theorem State.memoriesWf.modCtxAt {s : State} (h : s.memoriesWf) (l : Loc) (c : Nat) (f : Ctx → Ctx) : (s.modCtxAt l c f).memoriesWf :=
  h.modCoreAt l (h.core l)
theorem State.memoriesWf.modCtx {s : State} (h : s.memoriesWf) (f : Ctx → Ctx) : (s.modCtx f).memoriesWf := h.modCoreAt s.focus (h.core _)
theorem State.memoriesWf.post {s : State} (h : s.memoriesWf) (l : Loc) (c : Nat) (i : Instr) : (s.post l c i).memoriesWf := h

/-- A fold of operations that each keep a property keeps it. -/
theorem foldl_keeps {α β : Type} {P : α → Prop} {f : α → β → α} (h : ∀ x y, P x → P (f x y)) (l : List β) {x : α} (hx : P x) : P (l.foldl f x) := by
  induction l generalizing x with
  | nil => exact hx
  | cons y l ih => exact ih (h x y hx)
/-- Notes of running commands keep the form. -/
theorem State.memoriesWf.noteLocal {s : State} (h : s.memoriesWf) (own : Option (Nat × Nat)) (p n : Nat) : (s.noteLocal own p n).memoriesWf :=
  foldl_keeps (P := State.memoriesWf) (fun _ _ ht => ht.modCtxAt ..) _ h
/-- A store to a local memory keeps the form. -/
theorem State.memoriesWf.localPut {s : State} (h : s.memoriesWf) (own : Option (Nat × Nat)) (sp a : Nat) (bs : List Byte) :
    (s.localPut own sp a bs).memoriesWf := by
  have hn := h.noteLocal own (localPlace sp a) bs.length
  have hk := hn.core (s.noteLocal own (localPlace sp a) bs.length).focus
  refine hn.modCore ?_
  by_cases e : sp = 1 <;> simp only [e, if_true, if_false]
  · subst e; exact ⟨Memory.wf_write _ _ a hk.1, hk.2⟩
  · exact ⟨hk.1, Memory.wf_write _ _ a hk.2⟩
/-- A slot store to the scratchpad keeps the form. -/
theorem State.memoriesWf.spadStore {s : State} (h : s.memoriesWf) (a : Nat) (bs : List Byte) : (s.spadStore a bs).memoriesWf :=
  (h.localPut none 1 a bs).modCore ((h.localPut none 1 a bs).core _)
/-- A slot store to accumulator memory keeps the form. -/
theorem State.memoriesWf.accStore {s : State} (h : s.memoriesWf) (a : Nat) (bs : List Byte) : (s.accStore a bs).memoriesWf :=
  (h.localPut none 2 a bs).modCore ((h.localPut none 2 a bs).core _)

/-! ### Slot stores -/

/-- A store to the scratchpad that meets no running command changes the core of the store alone: its bytes, and what errors stood in them. -/
theorem State.localPut_spad {s : State} {own : Option (Nat × Nat)} (hq : s.core.copying own = []) (a : Nat) (bs : List Byte) :
    s.localPut own 1 a bs = s.modCore fun k => { k.rewritten 2 a bs.length with spad := Memory.write k.spad a bs } := by
  simp [State.localPut, State.racedLocal, State.noteLocal, hq, Core.rewritten]
/-- The same of accumulator memory. -/
theorem State.localPut_accm {s : State} {own : Option (Nat × Nat)} (hq : s.core.copying own = []) (a : Nat) (bs : List Byte) :
    s.localPut own 2 a bs = s.modCore fun k => { k.rewritten 3 a bs.length with accm := Memory.write k.accm a bs } := by
  simp [State.localPut, State.racedLocal, State.noteLocal, hq, Core.rewritten]

/-- A slot store to the scratchpad that meets no running command: its bytes there, and no other byte of any memory. -/
theorem State.spadStore_spec {s : State} (h : s.memoriesWf) (hq : s.core.copying none = []) (a : Nat) (bs : List Byte) :
    (∀ k (hk : k < bs.length), Memory.get (s.spadStore a bs).core.spad (a + k) = bs[k]) ∧ SpadOutside s (s.spadStore a bs) a bs.length ∧
      SameAccm s (s.spadStore a bs) ∧ SameGlobal s (s.spadStore a bs) ∧ SameDevices s (s.spadStore a bs) ∧
      (∀ l c, (s.spadStore a bs).ctxAt l c = s.ctxAt l c) := by
  have he : s.spadStore a bs = (s.modCore fun k => { k.rewritten 2 a bs.length with spad := Memory.write k.spad a bs }).modCore fun k =>
      { k with recent := (a, bs.length, k.cycle) :: k.recent } := by rw [State.spadStore, State.localPut_spad hq]
  have hc : ∀ l, (s.spadStore a bs).coreAt l = if locKey l = locKey s.focus then
      { s.core.rewritten 2 a bs.length with spad := Memory.write s.core.spad a bs, recent := (a, bs.length, s.core.cycle) :: s.core.recent } else s.coreAt l := by
    intro l
    rw [he]
    split
    · rename_i e
      rw [State.coreAt_focus (by exact e), State.core_modCore, State.core_modCore]; rfl
    · rename_i e
      exact (State.coreAt_modCoreAt_other _ _ e).trans (State.coreAt_modCoreAt_other _ _ e)
  refine ⟨?_, ?_, ?_, ?_, ?_, ?_⟩
  · intro k hk
    rw [show (s.spadStore a bs).core.spad = Memory.write s.core.spad a bs by rw [he]; simp]
    exact Memory.get_write_in bs _ a k (h.core s.focus).1 hk
  · intro l b hb
    rw [hc]
    split
    · rename_i e; rw [State.coreAt_focus e]; exact Memory.get_write_other bs _ a b (hb e)
    · rfl
  · intro l b; rw [hc]; split
    · rename_i e; rw [State.coreAt_focus e]; rfl
    · rfl
  · rw [he]; exact ⟨fun _ _ => rfl, fun _ => rfl⟩
  · rw [he]; exact ⟨rfl, rfl, rfl⟩
  · intro l c
    simp only [State.ctxAt]; rw [hc]; split
    · rename_i e; rw [State.coreAt_focus e]; rfl
    · rfl

end Sys2Proof.Machine
end

