-- ==== Sys2Proof/Laws/Memory.lean ====
section
/-! SUPPORT. Every operation over memory keeps the canonical form, and a write at a home changes its bytes and no others. -/

namespace Sys2Proof.Machine

/-! ### A die's store -/

/-- A write at a home keeps the form. -/
theorem Store.put_wf {m : Store} (h : Memory.wf m.mem = true) (hbm enc : Bool) (o : Nat) (bs : List Byte) :
    Memory.wf (m.put hbm enc o bs).mem = true := Memory.wf_write bs m.mem o h
/-- A write at a home: its bytes there, and no others. -/
theorem Store.put_spec {m : Store} (h : Memory.wf m.mem = true) (hbm enc : Bool) (o : Nat) (bs : List Byte) :
    (∀ k (hk : k < bs.length), Memory.get (m.put hbm enc o bs).mem (o + k) = bs[k]) ∧
      ∀ a, a < o ∨ o + bs.length ≤ a → Memory.get (m.put hbm enc o bs).mem a = Memory.get m.mem a :=
  ⟨fun k hk => Memory.get_write_in bs m.mem o k h hk, fun a ha => Memory.get_write_other bs m.mem o a ha⟩

/-- A member's COLL that is raced keeps the form. -/
theorem State.memoriesWf.collSpoil {s : State} (h : s.memoriesWf) (l : Loc) (c num : Nat) : (s.collSpoil l c num).memoriesWf := by
  have h := h.modCtxAt l c fun x => x.onQ fun q => { q with colls := q.colls.map fun k => if k.num = num then { k with raced := true } else k }
  refine ⟨h.1, ?_, h.2.2⟩
  intro e he
  obtain ⟨x, hx, rfl⟩ := List.mem_map.mp he
  exact h.2.1 x hx
/-- What a write notes of the commands and operations that it meets keeps the form. -/
theorem State.memoriesWf.noteRaces {s : State} (h : s.memoriesWf) (pk : Packet) (n : Nat) : (s.noteRaces pk n).memoriesWf := by
  refine foldl_keeps (P := State.memoriesWf) (fun _ _ ht => ht.collSpoil ..) _ (foldl_keeps (P := State.memoriesWf) (fun t e ht => ?_) _ h)
  split
  · exact ht
  · exact ht.modCtxAt ..

/-- A write of a program's request to HBM, second tier or host memory keeps the form. -/
theorem State.memoriesWf.memWrite {s t : State} (h : s.memoriesWf) {pk : Packet} {rmw : Bool} {bs : List Byte}
    (e : s.memWrite pk rmw bs = .ok t) : t.memoriesWf := by
  unfold State.memWrite at e
  split at e
  · dsimp only at e
    split at e
    · cases e; exact h
    · generalize s.raced pk bs = bs at e
      have h := h.noteRaces pk bs.length
      generalize s.noteRaces pk bs.length = u at e h
      split at e
      · cases e; exact ⟨h.1, h.2.1, Memory.wf_write bs _ _ h.2.2⟩
      · split at e
        · cases e; exact h.modDieAt _ _ ⟨Store.put_wf (h.die _ _).1 .., (h.die _ _).2⟩
        · cases e
  · cases e

/-- An update of a die that leaves its store and boot window alone keeps the form. -/
theorem State.memoriesWf.modDie_same {s : State} (h : s.memoriesWf) (p d : Nat) {f : Die → Die}
    (hf : ∀ x, (f x).store = x.store ∧ (f x).bootwin = x.bootwin) : (s.modDieAt p d f).memoriesWf :=
  h.modDieAt p d (by rw [(hf _).1, (hf _).2]; exact h.die p d)
theorem State.memoriesWf.logError {s : State} (h : s.memoriesWf) (p d code spkg sstn ctx agent w1 w2 w3 : Nat) :
    (s.logError p d code spkg sstn ctx agent w1 w2 w3).memoriesWf := h.modDie_same p d fun _ => ⟨rfl, rfl⟩

/-- A write of a device register keeps the form. -/
theorem State.memoriesWf.regWrite {s : State} (h : s.memoriesWf) (p d o : Nat) (v : Word) : (s.regWrite p d o v).memoriesWf := by
  unfold State.regWrite
  dsimp only
  split
  · exact h.modDie_same p d fun _ => ⟨rfl, rfl⟩
  · split <;> (try split) <;> (try split) <;> first
      | exact h
      | exact h.modDie_same p d fun _ => ⟨rfl, rfl⟩
      | exact h.post _ _ _
      | (apply State.memoriesWf.post; exact h.modDie_same p d fun _ => ⟨rfl, rfl⟩)
/-- A write of register space, the boot window among it, keeps the form. -/
theorem State.memoriesWf.devWrite {s t : State} (h : s.memoriesWf) {pk : Packet} {bs : List Byte} (e : s.devWrite pk bs = .ok t) : t.memoriesWf := by
  unfold State.devWrite at e
  dsimp only at e
  split at e
  · cases e; exact h.modDieAt _ _ ⟨(h.die _ _).1, Memory.wf_write bs _ _ (h.die _ _).2⟩
  · split at e
    · cases e
    · split at e
      · cases e
      · split at e
        · cases e
        · split at e
          · cases e
          · injection e with e; rw [← e]; exact h.regWrite _ _ _ _

/-- A write of the management processor's firmware keeps the form. -/
theorem State.memoriesWf.fwPut {s : State} (h : s.memoriesWf) (pa : Nat) (bs : List Byte) : (s.fwPut pa bs).memoriesWf :=
  h.modDieAt _ _ ⟨Store.put_wf (h.die _ _).1 .., (h.die _ _).2⟩
/-- A page copied keeps the form. -/
theorem State.memoriesWf.copyPage {s : State} (h : s.memoriesWf) (src dst : Nat) : (s.copyPage src dst).memoriesWf := by
  unfold State.copyPage
  dsimp only
  generalize List.map _ _ = bs
  exact h.modDieAt _ _ ⟨Memory.wf_write bs _ _ (h.die _ _).1, (h.die _ _).2⟩
/-- Bytes that become undefined keep the form. -/
theorem State.memoriesWf.scramble {s : State} (h : s.memoriesWf) (pa n : Nat) : (s.scramble pa n).memoriesWf :=
  by
    unfold State.scramble
    dsimp only
    generalize s.lostBytes _ _ = bs
    split
    · exact ⟨h.1, h.2.1, Memory.wf_write bs _ _ h.2.2⟩
    · exact h.modDieAt _ _ ⟨Memory.wf_write bs _ _ (h.die _ _).1, (h.die _ _).2⟩

/-! ### A core's local memories -/

/-- Rows that land keep the form. -/
theorem State.memoriesWf.landRow {s : State} (h : s.memoriesWf) (e : Exit) : (s.landRow e).memoriesWf := by
  unfold State.landRow
  split
  · exact (h.localPut ..).modCore ((h.localPut ..).core _)
  · exact h
theorem State.memoriesWf.landRows {s : State} (h : s.memoriesWf) (edge : Bool) : (s.landRows edge).memoriesWf := by
  have hf : ∀ l : List Exit, (l.foldl State.landRow s).memoriesWf := fun l => foldl_keeps (P := State.memoriesWf) (fun _ e ht => ht.landRow e) l h
  exact (hf _).modCore ((hf _).core _)

/-- Bank groups and rows restored from a save slot keep the form. -/
theorem Core.restored_wf {k : Core} (h : Memory.wf k.spad = true ∧ Memory.wf k.accm = true) (mask : Nat) (b : List (List Byte)) :
    Memory.wf (k.restored mask b).spad = true ∧ Memory.wf (k.restored mask b).accm = true := by
  have hf := foldl_keeps (P := fun k : Core => Memory.wf k.spad = true ∧ Memory.wf k.accm = true)
    (f := fun (k : Core) (g : Nat × Nat) => { k.rewritten 2 (g.1 * 2 ^ 20) (2 ^ 20) with spad := Memory.write k.spad (g.1 * 2 ^ 20) (nth [] b (10 + g.2)) })
    (fun _ _ hk => ⟨Memory.wf_write _ _ _ hk.1, hk.2⟩) (saveGroups mask).zipIdx h
  unfold Core.restored
  dsimp only
  split
  · exact ⟨hf.1, Memory.wf_write _ _ _ hf.2⟩
  · exact hf

/-- What follows a line written in a local memory keeps the form. -/
theorem State.memoriesWf.copyMoved {s : State} (h : s.memoriesWf) (num code faddr : Nat) : (s.copyMoved num code faddr).memoriesWf := h.modCtx _
theorem State.memoriesWf.copyPutDone {s : State} (h : s.memoriesWf) (k : Cmd) : (s.copyPutDone k).memoriesWf := by
  unfold State.copyPutDone State.slotFilled State.copyNextLine
  dsimp only
  repeat' split
  all_goals first
    | exact ((h.modCtx _).modCtx _)
    | exact h.modCtx _
    | exact State.memoriesWf.copyMoved ((h.modCtx _).modCtx _) ..
/-- A copy engine's write of a local memory keeps the form. -/
theorem State.memoriesWf.copyPut_local {s t : State} (h : s.memoriesWf) {k : Cmd} (hs : k.dsp ≠ 0) (e : s.copyPut k = some t) : t.memoriesWf := by
  unfold State.copyPut at e
  dsimp only at e
  split at e
  · cases e
  · split at e
    · exact absurd ‹_› hs
    · split at e
      · cases e
      · cases e
        refine State.memoriesWf.copyPutDone ?_ k
        have hu := foldl_keeps (P := State.memoriesWf) (f := fun (s : State) (r : Nat × List Byte) => s.localPut (some (s.sub, k.num)) k.dsp r.1 r.2)
          (fun _ _ ht => ht.localPut ..) (s.lineRuns k) h
        split
        · exact hu.modCore (foldl_keeps (P := fun c : Core => Memory.wf c.spad = true ∧ Memory.wf c.accm = true)
            (f := fun c (r : Nat × List Byte) => c.markSectors r.1 r.2.length) (fun _ _ hc => hc) _ (hu.core _))
        · exact hu

end Sys2Proof.Machine
end

