-- ==== Sys2Proof/Tests/Slice0.lean ====
section
/-! SUPPORT. Tests: every slot instruction's word, the checks of R207 and R208, and results computed by hand from the spec's tables. -/

open Sys2Proof Sys2Proof.Machine

namespace Sys2Proof.Tests

set_option Elab.async false

/-! ### Words: the fields of R209 to R218 as the opcode table numbers them, every field with another value, S = 1, Q = 01 -/

/-- The words of scalar and control instructions. -/
theorem test_words_c1 : ∀ x ∈ ([
    (0x84000000, .nop ⟨true, 1⟩),
    (0x8419686C, .add ⟨true, 1⟩ 2 22 33 44),
    (0x8429686C, .sub ⟨true, 1⟩ 2 22 33 44),
    (0x8439686C, .mul ⟨true, 1⟩ 2 22 33 44),
    (0x8449686C, .mulh ⟨true, 1⟩ 2 22 33 44),
    (0x8459686C, .mulhu ⟨true, 1⟩ 2 22 33 44),
    (0x8469686C, .divs ⟨true, 1⟩ 2 22 33 44),
    (0x8479686C, .divu ⟨true, 1⟩ 2 22 33 44),
    (0x8489686C, .rems ⟨true, 1⟩ 2 22 33 44),
    (0x8499686C, .remu ⟨true, 1⟩ 2 22 33 44),
    (0x84A9686C, .and ⟨true, 1⟩ 2 22 33 44),
    (0x84B9686C, .or ⟨true, 1⟩ 2 22 33 44),
    (0x84C9686C, .xor ⟨true, 1⟩ 2 22 33 44),
    (0x84D9686C, .andn ⟨true, 1⟩ 2 22 33 44),
    (0x84E9686C, .shl ⟨true, 1⟩ 2 22 33 44),
    (0x84F9686C, .shr ⟨true, 1⟩ 2 22 33 44),
    (0x8509686C, .sar ⟨true, 1⟩ 2 22 33 44),
    (0x8519686C, .rot ⟨true, 1⟩ 2 22 33 44),
    (0x8529686C, .min ⟨true, 1⟩ 2 22 33 44)] : List (Nat × Instr)),
    decode x.1 = .ok x.2 ∧ encode x.2 = some x.1 ∧ x.2.wf = true := by decide +kernel

/-- The words of scalar and control instructions, continued. -/
theorem test_words_c2 : ∀ x ∈ ([
    (0x8539686C, .max ⟨true, 1⟩ 2 22 33 44),
    (0x8549686C, .minu ⟨true, 1⟩ 2 22 33 44),
    (0x8559686C, .maxu ⟨true, 1⟩ 2 22 33 44),
    (0x85696840, .clz ⟨true, 1⟩ 2 22 33),
    (0x85796840, .popc ⟨true, 1⟩ 2 22 33),
    (0x8589686C, .sext ⟨true, 1⟩ 2 22 33 44),
    (0x8599686C, .zext ⟨true, 1⟩ 2 22 33 44),
    (0x85A9686C, .sel ⟨true, 1⟩ 2 22 33 44),
    (0x85BA5B34, .cmp ⟨true, 1⟩ 2 4 5 44 52),
    (0x85CA5083, .plog ⟨true, 1⟩ 2 4 5 2 3),
    (0x85E96A5C, .addi ⟨true, 1⟩ 2 22 2652),
    (0x85F96A5C, .li ⟨true, 1⟩ 2 22 2652),
    (0x86096A5C, .lih ⟨true, 1⟩ 2 22 2652),
    (0x8619686C, .fadd ⟨true, 1⟩ 1 22 33 44),
    (0x8629686C, .fmul ⟨true, 1⟩ 1 22 33 44),
    (0x8639686C, .ffma ⟨true, 1⟩ 1 22 33 44),
    (0x8640B585, .fcvt ⟨true, 1⟩ 11 22 5),
    (0x865A5B34, .fcmp ⟨true, 1⟩ 1 4 5 44 52),
    (0x868CDA3C, .br ⟨true, 1⟩ 1 4 1 23100)] : List (Nat × Instr)),
    decode x.1 = .ok x.2 ∧ encode x.2 = some x.1 ∧ x.2.wf = true := by decide +kernel

/-- The words of scalar and control instructions, continued. -/
theorem test_words_c3 : ∀ x ∈ ([
    (0x869EDA3C, .brk ⟨true, 1⟩ 1 1 5 23100),
    (0x86ACDA3C, .call ⟨true, 1⟩ 1 4 1 23100),
    (0x86BC8000, .ret ⟨true, 1⟩ 1 4 1),
    (0x86CCC034, .seg ⟨true, 1⟩ 1 4 1 2 52),
    (0x870605A1, .lpset ⟨true, 1⟩ 3 22 33),
    (0x8717086C, .lpstrd ⟨true, 1⟩ 3 2 33 44),
    (0x8726A000, .lpmod ⟨true, 1⟩ 6 10),
    (0x87360000, .lpmask ⟨true, 1⟩ 3),
    (0x874A0000, .lpgo ⟨true, 1⟩ 5),
    (0x875CDA3C, .lpbrk ⟨true, 1⟩ 1 4 1 23100),
    (0x87696005, .lpidx ⟨true, 1⟩ 2 22 5),
    (0x87800000, .ckpt ⟨true, 1⟩),
    (0x87900000, .yield ⟨true, 1⟩),
    (0x87A00000, .taskend ⟨true, 1⟩)] : List (Nat × Instr)),
    decode x.1 = .ok x.2 ∧ encode x.2 = some x.1 ∧ x.2.wf = true := by decide +kernel

/-- The words of vector (both clusters by the cluster bit) instructions. -/
theorem test_words_v1 : ∀ x ∈ ([
    (0xA5021B00, .vmov ⟨true, 1, true, 1⟩ 33 44),
    (0xA5061B34, .vadd ⟨true, 1, true, 1⟩ 33 44 52),
    (0xA50A1B34, .vsub ⟨true, 1, true, 1⟩ 33 44 52),
    (0xA50E1B34, .vmul ⟨true, 1, true, 1⟩ 33 44 52),
    (0xA5121B34, .vfma ⟨true, 1, true, 1⟩ 33 44 52),
    (0xA5161B34, .vfms ⟨true, 1, true, 1⟩ 33 44 52),
    (0xA51A1B34, .vmin ⟨true, 1, true, 1⟩ 33 44 52),
    (0xA51E1B34, .vmax ⟨true, 1, true, 1⟩ 33 44 52),
    (0xA5221B00, .vabs ⟨true, 1, true, 1⟩ 33 44),
    (0xA5261B00, .vneg ⟨true, 1, true, 1⟩ 33 44),
    (0xA52A1B34, .vand ⟨true, 1, true, 1⟩ 33 44 52),
    (0xA52E1B34, .vor ⟨true, 1, true, 1⟩ 33 44 52),
    (0xA5321B34, .vxor ⟨true, 1, true, 1⟩ 33 44 52),
    (0xA5361B34, .vandn ⟨true, 1, true, 1⟩ 33 44 52),
    (0xA53A1B34, .vshl ⟨true, 1, true, 1⟩ 33 44 52),
    (0xA53E1B34, .vshr ⟨true, 1, true, 1⟩ 33 44 52),
    (0xA5421B34, .vsar ⟨true, 1, true, 1⟩ 33 44 52),
    (0xA5445B34, .vcmpeq ⟨true, 1, true, 1⟩ 5 44 52),
    (0xA5485B34, .vcmplt ⟨true, 1, true, 1⟩ 5 44 52)] : List (Nat × Instr)),
    decode x.1 = .ok x.2 ∧ encode x.2 = some x.1 ∧ x.2.wf = true := by decide +kernel

/-- The words of vector (both clusters by the cluster bit) instructions, continued. -/
theorem test_words_v2 : ∀ x ∈ ([
    (0xA54C5B34, .vcmple ⟨true, 1, true, 1⟩ 5 44 52),
    (0xA5505B34, .vcmpltu ⟨true, 1, true, 1⟩ 5 44 52),
    (0xA5545B34, .vcmpleu ⟨true, 1, true, 1⟩ 5 44 52),
    (0xA55A1B0A, .vcvt ⟨true, 1, true, 1⟩ 33 44 10),
    (0xA55E1B06, .vqdx ⟨true, 1, true, 1⟩ 33 44 6),
    (0xA5661B34, .vpermb ⟨true, 1, true, 1⟩ 33 44 52),
    (0xA56A1B34, .vshuf ⟨true, 1, true, 1⟩ 33 44 52),
    (0xA56E1B34, .vbcast ⟨true, 1, true, 1⟩ 33 44 52),
    (0xA5721B34, .vexts ⟨true, 1, true, 1⟩ 33 44 52),
    (0xA775686C, .vins ⟨true, 1, true, 3⟩ 22 33 44),
    (0xA57A1000, .viota ⟨true, 1, true, 1⟩ 33),
    (0xA57E1B03, .vrsum ⟨true, 1, true, 1⟩ 33 44 3),
    (0xA5821B03, .vrmin ⟨true, 1, true, 1⟩ 33 44 3),
    (0xA5861B03, .vrmax ⟨true, 1, true, 1⟩ 33 44 3),
    (0xA58A1B24, .vscan ⟨true, 1, true, 1⟩ 33 44 2 4),
    (0xA58E1B00, .vexp2 ⟨true, 1, true, 1⟩ 33 44),
    (0xA5921B00, .vlog2 ⟨true, 1, true, 1⟩ 33 44),
    (0xA5961B00, .vrcp ⟨true, 1, true, 1⟩ 33 44),
    (0xA59A1B00, .vrsq ⟨true, 1, true, 1⟩ 33 44)] : List (Nat × Instr)),
    decode x.1 = .ok x.2 ∧ encode x.2 = some x.1 ∧ x.2.wf = true := by decide +kernel

/-- The words of vector (both clusters by the cluster bit) instructions, continued. -/
theorem test_words_v3 : ∀ x ∈ ([
    (0xA59E1B00, .vsqrt ⟨true, 1, true, 1⟩ 33 44),
    (0xA5A21B1C, .vld ⟨true, 1, true, 1⟩ 33 44 3 4),
    (0xA5A61B1C, .vst ⟨true, 1, true, 1⟩ 33 44 3 4),
    (0xA5AA1B03, .vlda ⟨true, 1, true, 1⟩ 33 44 3),
    (0xA5AE1B03, .vsta ⟨true, 1, true, 1⟩ 33 44 3),
    (0xA5B2125A, .vldc ⟨true, 1, true, 1⟩ 33 9 6 2),
    (0xA5B6125A, .vstc ⟨true, 1, true, 1⟩ 33 9 6 2),
    (0xA5BA1B00, .vcopy ⟨true, 1, true, 1⟩ 33 44),
    (0xA5BC5080, .vany ⟨true, 1, true, 1⟩ 5 2),
    (0xA5C05080, .vall ⟨true, 1, true, 1⟩ 5 2),
    (0xA5C6A0C4, .vkop ⟨true, 1, true, 1⟩ 5 2 3 4),
    (0xA5CA1080, .vkpop ⟨true, 1, true, 1⟩ 33 2),
    (0xA5CE1B19, .vunpk ⟨true, 1, true, 1⟩ 33 44 1 9),
    (0xA5D21B1D, .vpack ⟨true, 1, true, 1⟩ 33 44 1 13),
    (0xA5D61B34, .vmulh ⟨true, 1, true, 1⟩ 33 44 52),
    (0xA5DE1B00, .vpopc ⟨true, 1, true, 1⟩ 33 44),
    (0xA5F6CD28, .vsel ⟨true, 1, true, 1⟩ 5 44 52 40)] : List (Nat × Instr)),
    decode x.1 = .ok x.2 ∧ encode x.2 = some x.1 ∧ x.2.wf = true := by decide +kernel

/-- The words of array instructions. -/
theorem test_words_m1 : ∀ x ∈ ([
    (0xB4000000, .mclr ⟨true, 1⟩),
    (0xB45AABB0, .mpush ⟨true, 1⟩ 6 10 5 3 5 2),
    (0xB49AABB0, .mpushz ⟨true, 1⟩ 6 10 5 3 5 2),
    (0xB4CB8000, .mshift ⟨true, 1⟩ 11 2),
    (0xB50B0000, .mdrain ⟨true, 1⟩ 11),
    (0xB55C0000, .mscout ⟨true, 1⟩ 3 4),
    (0xB58B0000, .mcell ⟨true, 1⟩ 11),
    (0xB5CB0000, .mcfg ⟨true, 1⟩ 11),
    (0xB60B0000, .mthr ⟨true, 1⟩ 11),
    (0xB65CA800, .tmop ⟨true, 1⟩ 3 4 5 2),
    (0xB6800000, .mrel ⟨true, 1⟩)] : List (Nat × Instr)),
    decode x.1 = .ok x.2 ∧ encode x.2 = some x.1 ∧ x.2.wf = true := by decide +kernel

/-- The words of access and local instructions. -/
theorem test_words_x1 : ∀ x ∈ ([
    (0xC405686C, .lds ⟨true, 1⟩ 1 22 33 44),
    (0xC415686C, .sts ⟨true, 1⟩ 1 22 33 44),
    (0xC4260580, .ldg ⟨true, 1⟩ 3 22),
    (0xC4360580, .ldga ⟨true, 1⟩ 3 22),
    (0xC4496000, .lpop ⟨true, 1⟩ 2 22),
    (0xC45B086C, .stg ⟨true, 1⟩ 5 1 33 44),
    (0xC46D8B34, .stgr ⟨true, 1⟩ 6 1 4 44 52),
    (0xC47805A1, .gpush ⟨true, 1⟩ 1 22 33),
    (0xC4896000, .gpop ⟨true, 1⟩ 1 22),
    (0xC499686C, .scat ⟨true, 1⟩ 1 22 33 44),
    (0xC4A80032, .qdrop ⟨true, 1⟩ 1 50),
    (0xC4B96000, .qcnt ⟨true, 1⟩ 1 22),
    (0xC4C0B580, .tlook ⟨true, 1⟩ 11 22),
    (0xC4D605A1, .tset ⟨true, 1⟩ 3 22 33),
    (0xC4E60580, .tclr ⟨true, 1⟩ 3 22),
    (0xC4FE1800, .fwr ⟨true, 1⟩ 1 1 33 1),
    (0xC50E1800, .frd ⟨true, 1⟩ 1 1 33 1),
    (0xC5196000, .fcnt ⟨true, 1⟩ 1 22)] : List (Nat × Instr)),
    decode x.1 = .ok x.2 ∧ encode x.2 = some x.1 ∧ x.2.wf = true := by decide +kernel

/-- The words of engine and wait instructions. -/
theorem test_words_d1 : ∀ x ∈ ([
    (0xD40002C0, .cpy ⟨true, 1⟩ 11),
    (0xD41002C0, .cpyt ⟨true, 1⟩ 11),
    (0xD4260580, .cpym ⟨true, 1⟩ 3 22),
    (0xD4306580, .cpyc ⟨true, 1⟩ 6 22),
    (0xD4406580, .cbset ⟨true, 1⟩ 6 22),
    (0xD45060C8, .cbadvR ⟨true, 1⟩ 6 200),
    (0xD45860C8, .cbadvW ⟨true, 1⟩ 6 200),
    (0xD46060C8, .cbwait ⟨true, 1⟩ 6 200),
    (0xD476402C, .tlrd ⟨true, 1⟩ 3 0 1 44),
    (0xD4866D00, .tlwait ⟨true, 1⟩ 3 0 1 1 52),
    (0xD4966D00, .tllag ⟨true, 1⟩ 3 0 1 1 52),
    (0xD4A00000, .qmark ⟨true, 1⟩),
    (0xD4B80000, .fence ⟨true, 1⟩ 4),
    (0xD4C2C840, .atom ⟨true, 1⟩ 1 3 33),
    (0xD4D2C86C, .atomr ⟨true, 1⟩ 1 3 33 44),
    (0xD4EE886C, .atomx ⟨true, 1⟩ 7 2 33 44),
    (0xD4F0000C, .deal ⟨true, 1⟩ 12),
    (0xD5000000, .gbar ⟨true, 1⟩),
    (0xD51002C0, .coll ⟨true, 1⟩ 11)] : List (Nat × Instr)),
    decode x.1 = .ok x.2 ∧ encode x.2 = some x.1 ∧ x.2.wf = true := by decide +kernel

/-- The words of engine and wait instructions, continued. -/
theorem test_words_d2 : ∀ x ∈ ([
    (0xD5260580, .waitf ⟨true, 1⟩ 3 22),
    (0xD536C840, .flagw ⟨true, 1⟩ 13 4 33)] : List (Nat × Instr)),
    decode x.1 = .ok x.2 ∧ encode x.2 = some x.1 ∧ x.2.wf = true := by decide +kernel

/-- The words of sampling and generator instructions. -/
theorem test_words_s1 : ∀ x ∈ ([
    (0xE4040000, .hclr ⟨true, 1⟩ 1),
    (0xE4174B34, .smerge ⟨true, 1⟩ 1 1 5 44 52),
    (0xE4274034, .hrd ⟨true, 1⟩ 1 1 2 1 52),
    (0xE4364B00, .hwr ⟨true, 1⟩ 1 1 1 44),
    (0xE443086C, .ssort ⟨true, 1⟩ 1 4 33 44),
    (0xE45405A1, .spick ⟨true, 1⟩ 1 22 33),
    (0xE4680016, .srnd ⟨true, 1⟩ 2 22),
    (0xE4780580, .sradd ⟨true, 1⟩ 2 22),
    (0xE4880580, .srld ⟨true, 1⟩ 2 22),
    (0xE4980580, .srst ⟨true, 1⟩ 2 22),
    (0xE4A002D6, .suni ⟨true, 1⟩ 11 22),
    (0xE4B60580, .sacc ⟨true, 1⟩ 3 22),
    (0xE4C0D5A1, .sqfork ⟨true, 1⟩ 13 22 33),
    (0xE4D105A1, .sqapp ⟨true, 1⟩ 16 22 33),
    (0xE4E0D5A1, .sqcommit ⟨true, 1⟩ 13 22 33),
    (0xE4F002D6, .sqtrunc ⟨true, 1⟩ 11 22),
    (0xE50002D6, .sqcur ⟨true, 1⟩ 11 22),
    (0xE51002D6, .sqframe ⟨true, 1⟩ 11 22)] : List (Nat × Instr)),
    decode x.1 = .ok x.2 ∧ encode x.2 = some x.1 ∧ x.2.wf = true := by decide +kernel

/-- The words of system instructions. -/
theorem test_words_e1 : ∀ x ∈ ([
    (0xF40002C0, .fmtw ⟨true, 1⟩ 11),
    (0xF410B000, .fmtr ⟨true, 1⟩ 11),
    (0xF420B034, .sysrd ⟨true, 1⟩ 11 52),
    (0xF430B043, .syswr ⟨true, 1⟩ 11 67),
    (0xF440B004, .isaq ⟨true, 1⟩ 11 4),
    (0xF450B000, .cyc ⟨true, 1⟩ 11),
    (0xF4600A5C, .trap ⟨true, 1⟩ 2652),
    (0xF4700000, .eret ⟨true, 1⟩),
    (0xF4840580, .watch ⟨true, 1⟩ 1 22),
    (0xF4900A5C, .bkpt ⟨true, 1⟩ 2652)] : List (Nat × Instr)),
    decode x.1 = .ok x.2 ∧ encode x.2 = some x.1 ∧ x.2.wf = true := by decide +kernel

/-- A field marked 0 that is not, in each class: the reserved bits of NOP, CLZ, VMOV, MCLR, LDG, QMARK, HCLR and FMTR. -/
theorem test_reserved_fields : ∀ w ∈ [0x00000001, 0x01600001, 0x10000001, 0x30000001, 0x40200001, 0x50A00001, 0x60000001, 0x70100001],
    decode w = .error .reservedField := by decide +kernel

/-- The opcodes that the maps mark "—", at the edges of each run, and the last listed opcode before each run. -/
theorem test_undefined_opcodes :
    (∀ w ∈ [0x01D00000, 0x02600000, 0x02D00000, 0x02F00000, 0x03B00000, 0x03F00000, 0x32C00000, 0x33C00000, 0x41200000, 0x43F00000,
      0x51400000, 0x53F00000, 0x61200000, 0x63F00000, 0x70A00000, 0x73F00000], decode w = .error .undefinedOpcode) ∧
    ∀ w ∈ [0x01C00000, 0x03A00000, 0x32800000, 0x41100000, 0x51300000, 0x61100000, 0x70900000], decode w ≠ .error .undefinedOpcode := by decide +kernel

/-! ### Well-formedness: an ill-formed term for each check -/

/-- A slot head, a vector head of cluster V0 at W 10, and one with W = 11. -/
def h : Hd := ⟨false, 0⟩
def v : VHd := ⟨false, 0, false, 2⟩
def b : VHd := ⟨false, 0, false, 3⟩

/-- R208: a predicate destination p0. -/
theorem test_ill_formed_1 : ∀ i ∈ ([.cmp h 0 0 0 1 2, .plog h 0 0 0 1 2, .fcmp h 0 0 0 1 2, .vany v 0 1, .vall v 0 1, .waitf h 0 4, .sacc h 0 4] : List Instr), i.wf = false := by decide +kernel

/-- R208: a mask destination vk0 or wk0. -/
theorem test_ill_formed_2 : ∀ i ∈ ([.vcmpeq v 0 1 2, .vcmplt v 0 1 2, .vcmple v 0 1 2, .vcmpltu v 0 1 2, .vcmpleu v 0 1 2, .vkop v 0 0 1 2] : List Instr), i.wf = false := by decide +kernel

/-- R241: a SEG kind 3, and a register named by a kind that reads none. -/
theorem test_ill_formed_3 : ∀ i ∈ ([.seg h 0 0 1 3 0, .seg h 0 0 1 0 5, .seg h 0 0 1 1 5] : List Instr), i.wf = false := by decide +kernel

/-- R243, R246: levels 6 and 7, a stride of s63. -/
theorem test_ill_formed_4 : ∀ i ∈ ([.lpset h 6 1 2, .lpset h 7 1 2, .lpstrd h 6 0 1 2, .lpstrd h 0 0 63 2, .lpidx h 0 1 6] : List Instr), i.wf = false := by decide +kernel

/-- R244: a nest of 0 or 7 levels. -/
theorem test_ill_formed_5 : ∀ i ∈ ([.lpgo h 0, .lpgo h 7] : List Instr), i.wf = false := by decide +kernel

/-- R213: W = 11 where the instruction has no broadcast form. -/
theorem test_ill_formed_6 : ∀ i ∈ ([.vmov b 1 2, .vabs b 1 2, .vneg b 1 2, .vpermb b 1 2 3, .vshuf b 1 2 3, .viota b 1, .vrsum b 1 2 0, .vrmin b 1 2 0, .vrmax b 1 2 0, .vscan b 1 2 0 0, .vexp2 b 1 2, .vlog2 b 1 2, .vrcp b 1 2, .vrsq b 1 2, .vsqrt b 1 2, .vld b 1 2 0 0, .vst b 1 2 0 0, .vlda b 1 2 0, .vsta b 1 2 0, .vldc b 1 2 0 0, .vstc b 1 2 0 0, .vcopy b 1 2, .vany b 1 0, .vall b 1 0, .vkop b 0 1 2 3, .vkpop b 1 0, .vunpk b 1 2 0 9, .vpack b 1 2 0 9, .vpopc b 1 2, .vcvt b 1 2 0, .vqdx b 1 2 5] : List Instr), i.wf = false := by decide +kernel

/-- R266: VINS without W = 11, VBCAST with W = 11 and A not 0. -/
theorem test_ill_formed_7 : ∀ i ∈ ([.vins v 1 2 3, .vbcast b 1 2 3] : List Instr), i.wf = false := by decide +kernel

/-- R262 to R264, R269: format and operator codes. -/
theorem test_ill_formed_8 : ∀ i ∈ ([.vcvt v 1 2 15, .vqdx v 1 2 4, .vqdx v 1 2 7, .vunpk v 1 2 0 8, .vunpk v 1 2 0 14, .vpack v 1 2 0 8, .vpack v 1 2 0 14, .vscan v 1 2 3 0] : List Instr), i.wf = false := by decide +kernel

/-- R208: i field 6, and R283: MSHIFT's type 3. -/
theorem test_ill_formed_9 : ∀ i ∈ ([.mpush h 0 1 0 6 0 0, .mpush h 0 1 0 0 6 0, .mpushz h 0 1 0 6 0 0, .mpushz h 0 1 0 0 6 0, .mscout h 1 6, .mshift h 1 3] : List Instr), i.wf = false := by decide +kernel

/-- R298, R310, R311: LPOP's form 3, a cluster on a store of at most 8 bytes, scope 7. -/
theorem test_ill_formed_10 : ∀ i ∈ ([.lpop h 3 1, .stg h 3 1 1 2, .stgr h 3 1 1 1 2, .stgr h 3 0 7 1 2] : List Instr), i.wf = false := by decide +kernel

/-- R301 to R303: a drop of more than 64, fifo words of an odd register or with a cluster bit. -/
theorem test_ill_formed_11 : ∀ i ∈ ([.qdrop h 0 65, .fwr h 0 0 1 0, .fwr h 0 0 2 1, .frd h 0 0 1 0, .frd h 0 0 2 1] : List Instr), i.wf = false := by decide +kernel

/-- R208: operands that run past s63. -/
theorem test_ill_formed_12 : ∀ i ∈ ([.cpy h 62, .cpyt h 59, .cpym h 0 60, .cpyc h 0 61, .cbset h 0 62, .atom h 0 1 63, .atom h 7 1 62, .atomr h 0 1 63 1, .atomr h 7 1 62 1, .atomx h 7 1 62 1, .waitf h 1 62, .flagw h 0 0 63, .sacc h 1 62, .sqfork h 0 63 1, .sqapp h 0 62 1, .sqcommit h 0 62 1, .sqtrunc h 63 1, .sqcur h 63 1, .watch h 0 63] : List Instr), i.wf = false := by decide +kernel

/-- R307: slot counts 0 and above 256. -/
theorem test_ill_formed_13 : ∀ i ∈ ([.cbadvR h 0 0, .cbadvR h 0 257, .cbadvW h 0 0, .cbadvW h 0 257, .cbwait h 0 0, .cbwait h 0 257] : List Instr), i.wf = false := by decide +kernel

/-- R308: counters 5 to 7, a context named with OWN = 1. -/
theorem test_ill_formed_14 : ∀ i ∈ ([.tlrd h 5 0 0 1, .tlrd h 4 1 1 1, .tlwait h 5 0 0 0 0, .tlwait h 0 1 2 0 0, .tllag h 7 0 0 0 0, .tllag h 0 1 3 0 0] : List Instr), i.wf = false := by decide +kernel

/-- R309, R315: scope 7. -/
theorem test_ill_formed_15 : ∀ i ∈ ([.fence h 7, .flagw h 0 7 1] : List Instr), i.wf = false := by decide +kernel

/-- R170: operation and type codes that form no pair, and R313: an ATOMX other than swap and cas. -/
theorem test_ill_formed_16 : ∀ i ∈ ([.atom h 0 2 1, .atom h 1 5 1, .atom h 2 7 1, .atom h 3 0 1, .atom h 4 1 1, .atom h 5 4 1, .atom h 6 5 1, .atomr h 0 3 1 2, .atomx h 5 2 1 2, .atomx h 6 6 1 2] : List Instr), i.wf = false := by decide +kernel

/-- R208: a pair of an odd register. -/
theorem test_ill_formed_17 : ∀ i ∈ ([.deal h 5, .srnd h 0 5, .sradd h 0 5] : List Instr), i.wf = false := by decide +kernel

/-- R319: HRD's field 3. -/
theorem test_ill_formed_18 : ∀ i ∈ ([.hrd h 0 0 3 0 1] : List Instr), i.wf = false := by decide +kernel

/-- R325: channels above 15 (16 for SQAPP). -/
theorem test_ill_formed_19 : ∀ i ∈ ([.sqfork h 16 1 2, .sqapp h 17 1 2, .sqcommit h 16 1 2] : List Instr), i.wf = false := by decide +kernel

/-- R328, R329: system registers that are not listed, and SYSWR to one that is read only. -/
theorem test_ill_formed_20 : ∀ i ∈ ([.sysrd h 1 5, .sysrd h 1 0x14, .sysrd h 1 0x24, .sysrd h 1 0x38, .sysrd h 1 0x44, .sysrd h 1 0x49, .syswr h 1 0x10, .syswr h 1 0x30, .syswr h 1 0x35, .syswr h 1 0x44] : List Instr), i.wf = false := by decide +kernel

/-- R330: ISAQ selector 5. -/
theorem test_ill_formed_21 : ∀ i ∈ ([.isaq h 1 5] : List Instr), i.wf = false := by decide +kernel

/-! ### Results, by hand from the tables of R229 to R236, R246, R301, R303, R308, R327, R328 and R330 -/

/-- s6 = −7, s7 = 3, s8 = FP32 1.5, s9 = FP32 2.25; p1 = 1, p2 = 0; IDX of L2 is 4; VF0 = VF1 = INT32; FSCR0 = 0x77. -/
def sA : State := State.reset.modCtx fun c => { c with
  regs := { c.regs with
    s := [(6, 0xFFFFFFFFFFFFFFF9), (7, 3), (8, 0x3FC00000), (9, 0x40100000)], p := [(1, true), (2, false)], lvl := [(2, { Level.reset with idx := 4 })], fmt := 0x88 }
  sys := { c.sys with fscr0 := 0x77 } }

/-- The result that a slot sends: latency, register, value, flags. -/
def sent (i : Instr) (s : State) : Option (Nat × RegId × Nat × Flags) :=
  match exec i s with
  | .next t => match t.ctx.pipe.infl with
    | [l] => some (l.due - s.cyc, l.reg, l.val.num, l.flags)
    | _ => none
  | _ => none

/-- Scalar results. -/
theorem test_scalar_results1 : ∀ x ∈ ([
    (.add h 1 5 6 7, 1, .s 5, 18446744073709551612, 0),
    (.sub h 1 5 7 6, 1, .s 5, 10, 0),
    (.mul h 1 5 6 7, 3, .s 5, 18446744073709551595, 0),
    (.mulh h 1 5 6 7, 3, .s 5, 18446744073709551615, 0),
    (.mulhu h 1 5 6 7, 3, .s 5, 2, 0),
    (.divs h 1 5 6 7, 12, .s 5, 18446744073709551614, 0),
    (.divs h 1 5 6 0, 12, .s 5, 18446744073709551615, fDZ),
    (.divu h 1 5 6 7, 12, .s 5, 6148914691236517203, 0),
    (.rems h 1 5 6 7, 12, .s 5, 18446744073709551615, 0),
    (.remu h 1 5 6 7, 12, .s 5, 0, 0),
    (.remu h 1 5 6 0, 12, .s 5, 18446744073709551609, fDZ),
    (.and h 1 5 6 7, 1, .s 5, 1, 0),
    (.or h 1 5 6 7, 1, .s 5, 18446744073709551611, 0),
    (.xor h 1 5 6 7, 1, .s 5, 18446744073709551610, 0),
    (.andn h 1 5 6 7, 1, .s 5, 18446744073709551608, 0),
    (.shl h 1 5 6 7, 1, .s 5, 18446744073709551560, 0),
    (.shr h 1 5 6 7, 1, .s 5, 2305843009213693951, 0),
    (.sar h 1 5 6 7, 1, .s 5, 18446744073709551615, 0),
    (.rot h 1 5 6 7, 1, .s 5, 18446744073709551567, 0),
    (.rot h 1 5 6 0, 1, .s 5, 18446744073709551609, 0),
    (.min h 1 5 6 7, 1, .s 5, 18446744073709551609, 0),
    (.max h 1 5 6 7, 1, .s 5, 3, 0),
    (.minu h 1 5 6 7, 1, .s 5, 3, 0),
    (.maxu h 1 5 6 7, 1, .s 5, 18446744073709551609, 0),
    (.clz h 1 5 7, 1, .s 5, 62, 0),
    (.clz h 1 5 0, 1, .s 5, 64, 0),
    (.popc h 1 5 6, 1, .s 5, 62, 0),
    (.sext h 1 5 6 3, 1, .s 5, 18446744073709551609, 0),
    (.zext h 1 5 6 3, 1, .s 5, 9, 0),
    (.sel h 2 5 6 7, 1, .s 5, 3, 0)] : List (Instr × Nat × RegId × Nat × Flags)),
    sent x.1 sA = some x.2 := by decide +kernel

/-- Scalar results, continued. -/
theorem test_scalar_results2 : ∀ x ∈ ([
    (.sel h 0 5 6 7, 1, .s 5, 18446744073709551609, 0),
    (.cmp h 1 3 2 6 7, 1, .p 3, 1, 0),
    (.cmp h 1 3 4 6 7, 1, .p 3, 0, 0),
    (.plog h 1 3 3 1 2, 1, .p 3, 1, 0),
    (.addi h 1 7 0xFFE, 1, .s 7, 1, 0),
    (.li h 1 5 0xFFF, 1, .s 5, 18446744073709551615, 0),
    (.lih h 1 7 0xABC, 1, .s 7, 15036, 0),
    (.lpidx h 1 5 2, 1, .s 5, 4, 0),
    (.fadd h 0 5 8 9, 5, .s 5, 1081081856, 0),
    (.fmul h 0 5 8 9, 5, .s 5, 1079508992, 0),
    (.ffma h 0 9 8 8, 5, .s 9, 1083179008, 0),
    (.fcvt h 5 8 0, 5, .s 5, 4609434218613702656, 0),
    (.fcvt h 5 8 2, 5, .s 5, 2, fNX),
    (.fcmp h 0 3 2 8 9, 5, .p 3, 1, 0),
    (.fmtr h 5, 1, .s 5, 136, 0),
    (.isaq h 5 4, 1, .s 5, 768, 0),
    (.cyc h 5, 1, .s 5, 0, 0),
    (.qcnt h 0 5, 1, .s 5, 0, 0),
    (.fcnt h 0 5, 1, .s 5, 16, 0),
    (.tlrd h 4 1 0 5, 1, .s 5, 0, 0),
    (.sysrd h 5 0x36, 1, .s 5, 119, 0)] : List (Instr × Nat × RegId × Nat × Flags)),
    sent x.1 sA = some x.2 := by decide +kernel
/-! ### Vector results, by hand from R254 to R270 and R275 -/

/-- A vector head at W 00, 256 bits, of cluster V0, and of V1. -/
def q : VHd := ⟨false, 0, false, 0⟩
def r : VHd := ⟨false, 0, true, 0⟩
/-- VF0 = VF1 = INT32; lanes of v1 are −5, −2, 1, …, 16, of v2 2, 3, 1, 0, 7, 31, 32, 4, of v3 100 to 107 with 0xABCD above them; v4 holds byte
indexes; w3 is as v3; vk1 = 0xA5, vk2 = 0x5C3. -/
def sV : State := State.reset.modCtx fun c => { c with regs := { c.regs with
  v := [(1, ofLanes 32 [4294967291, 4294967294, 1, 4, 7, 10, 13, 16]), (2, ofLanes 32 [2, 3, 1, 0, 7, 31, 32, 4]),
    (3, ofLanes 32 [100, 101, 102, 103, 104, 105, 106, 107, 43981]), (4, ofLanes 8 [31, 128, 5, 32, 7])]
  w := [(3, ofLanes 32 [100, 101, 102, 103, 104, 105, 106, 107, 43981])]
  vk := [(1, 0xA5), (2, 0x5C3)], fmt := 0x88 } }

/-- The result that a slot sends. -/
def sentV (i : Instr) : Option (Nat × Nat × Flags) := (sent i sV).map fun x => (x.1, x.2.2.1, x.2.2.2)

/-- Lanes: latency, result with the bits above the lanes written as the destination held them, flags. -/
theorem test_lane_results : ∀ x ∈ ([
    (.vadd q 3 1 2, 3, 0xABCD000000140000002D000000290000000E000000040000000200000001FFFFFFFD, 0),
    (.vsub q 3 1 2, 3, 0xABCD0000000CFFFFFFEDFFFFFFEB000000000000000400000000FFFFFFFBFFFFFFF9, 0),
    (.vmul q 3 1 2, 5, 0xABCD00000040000001A000000136000000310000000000000001FFFFFFFAFFFFFFF6, 0),
    (.vmin q 3 1 2, 3, 0xABCD000000040000000D0000000A000000070000000000000001FFFFFFFEFFFFFFFB, 0),
    (.vmax q 3 1 2, 3, 0xABCD00000010000000200000001F0000000700000004000000010000000300000002, 0),
    (.vfma q 3 1 2, 5, 0xABCD000000AB0000020A0000019F0000009900000067000000670000005F0000005A, 0),
    (.vfms q 3 1 2, 5, 0xABCD0000002BFFFFFECAFFFFFF330000003700000067000000650000006B0000006E, 0),
    (.vmulh q 3 1 2, 5, 0xABCD000000000000000000000000000000000000000000000000FFFFFFFFFFFFFFFF, 0),
    (.vabs q 3 1, 3, 0xABCD000000100000000D0000000A0000000700000004000000010000000200000005, 0),
    (.vneg q 3 1, 3, 0xABCDFFFFFFF0FFFFFFF3FFFFFFF6FFFFFFF9FFFFFFFCFFFFFFFF0000000200000005, 0),
    (.vand q 3 1 2, 3, 0xABCD00000000000000000000000A0000000700000000000000010000000200000002, 0),
    (.vor q 3 1 2, 3, 0xABCD000000140000002D0000001F000000070000000400000001FFFFFFFFFFFFFFFB, 0),
    (.vxor q 3 1 2, 3, 0xABCD000000140000002D00000015000000000000000400000000FFFFFFFDFFFFFFF9, 0),
    (.vandn q 3 1 2, 3, 0xABCD000000100000000D00000000000000000000000400000000FFFFFFFCFFFFFFF9, 0),
    (.vshl q 3 1 2, 3, 0xABCD000001000000000000000000000003800000000400000002FFFFFFF0FFFFFFEC, 0),
    (.vshr q 3 1 2, 3, 0xABCD0000000100000000000000000000000000000004000000001FFFFFFF3FFFFFFE, 0),
    (.vsar q 3 1 2, 3, 0xABCD000000010000000000000000000000000000000400000000FFFFFFFFFFFFFFFE, 0),
    (.vpopc q 3 1, 3, 0xABCD0000000100000003000000020000000300000001000000010000001F0000001F, 0),
    (.vsel q 1 3 1 2, 3, 0xABCD00000010000000200000000A00000007000000000000000100000003FFFFFFFB, 0),
    (.vcvt q 3 1 0, 4, 0xABCD41800000415000004120000040E00000408000003F800000C0000000C0A00000, 0),
    (.vunpk q 3 1 1 10, 4, 0xABCD0000000000000000000000000000000400000000000000000000000000000001, 0),
    (.vpack q 3 1 1 10, 4, 0xABCD0000006B0000006A0000006900000068100D0A070401FEFB0000006500000064, 0),
    (.vpermb q 3 1 4, 3, 0xABCDFBFBFBFBFBFBFBFBFBFBFBFBFBFBFBFBFBFBFBFBFBFBFBFBFBFBFBFFFBFF0000, 0),
    (.vshuf q 3 1 2, 3, 0xABCD00000007000000000000000000000010FFFFFFFBFFFFFFFE0000000400000001, 0),
    (.vbcast q 3 1 6, 3, 0xABCD0000000D0000000D0000000D0000000D0000000D0000000D0000000D0000000D, 0),
    (.viota q 3, 3, 0xABCD0000000700000006000000050000000400000003000000020000000100000000, 0),
    (.vkpop q 3 1, 3, 0xABCD0000000400000004000000040000000400000004000000040000000400000004, 0),
    (.vrsum q 3 1 1, 6, 0xABCD0000006B0000006A000000690000006800000067000000660000006500000016, 0),
    (.vrmin q 3 1 1, 6, 0xABCD0000006B0000006A0000006900000068000000670000006600000065FFFFFFFB, 0),
    (.vrmax q 3 1 1, 6, 0xABCD0000006B0000006A000000690000006800000067000000660000006500000010, 0),
    (.vscan q 3 1 0 1, 6, 0xABCD000000160000000600000006FFFFFFFCFFFFFFFCFFFFFFFCFFFFFFFBFFFFFFFB, 0),
    (.vmov q 3 1, 3, 0xABCD000000100000000D0000000A000000070000000400000001FFFFFFFEFFFFFFFB, 0),
    (.vcopy r 3 1, 2, 0xABCD000000100000000D0000000A000000070000000400000001FFFFFFFEFFFFFFFB, 0)] : List (Instr × Nat × Nat × Flags)),
    sentV x.1 = some x.2 := by decide +kernel

/-- Masks: bits above the lanes stay. -/
theorem test_mask_results : ∀ x ∈ ([
    (.vcmpeq q 2 1 2, 3, 0x514, 0),
    (.vcmplt q 2 1 2, 3, 0x563, 0),
    (.vcmple q 2 1 2, 3, 0x577, 0),
    (.vcmpltu q 2 1 2, 3, 0x560, 0),
    (.vcmpleu q 2 1 2, 3, 0x574, 0),
    (.vkop q 2 2 1 0, 3, 0x55A, 0)] : List (Instr × Nat × Nat × Flags)),
    sentV x.1 = some x.2 := by decide +kernel

/-- VINS writes one lane of the 1024-bit register and no other; VANY, VALL and VEXTS of a lane beyond the width read 0. -/
theorem test_cross_results : ∀ x ∈ ([
    (.vins ⟨false, 0, false, 3⟩ 3 2 0, 3, 0xABCD0000006B0000006A000000690000006800000067000000000000006500000064, 0), (.vany q 3 1, 3, 1, 0), (.vall q 3 1, 3, 0, 0),
    (.vexts q 5 1 1, 3, 0xFFFFFFFFFFFFFFFE, 0), (.vexts q 5 1 8, 3, 0, 0)] : List (Instr × Nat × Nat × Flags)), sentV x.1 = some x.2 := by decide +kernel

/-- Special functions of FP32 with exact results: 2^3, log2 8, 1/4, 1/√4, √4 in the lowest lane, 0 in the others as source. -/
theorem test_special_results : ∀ x ∈ ([
    (.vexp2 q 3 1, 0x40400000, 0x41000000), (.vlog2 q 3 1, 0x41000000, 0x40400000), (.vrcp q 3 1, 0x40800000, 0x3E800000),
    (.vrsq q 3 1, 0x40800000, 0x3F000000), (.vsqrt q 3 1, 0x40800000, 0x40000000)] : List (Instr × Nat × Nat)),
    (sent x.1 (State.reset.modCtx fun c => { c with regs := { c.regs with v := [(1, BitVec.ofNat 1024 x.2.1)] } })).map (fun y => (y.1, y.2.2.1 % 2 ^ 32)) = some (9, x.2.2) := by
  decide +kernel

/-- VQDX of 32 FP32 ones: the least exponent that holds 1 in six bits is 127, where 1 is 32; both scale bytes are 127 (R102, R263). -/
theorem test_vqdx : (sent (.vqdx ⟨false, 0, false, 2⟩ 3 1 5) (State.reset.modCtx fun c => { c with regs := { c.regs with
      v := [(1, ofLanes 32 (List.replicate 32 0x3F800000))] } })).map (fun y => (y.1, y.2.2.1, y.2.2.2)) =
    some (4, ofLanes 8 (List.replicate 32 32) + 0x7F7F * 2 ^ 512, 0) := by decide +kernel

end Sys2Proof.Tests
end

