-- ==== Sys2Proof/Tests/WitnessSlots.lean ====
section
/-! SUPPORT. Tests: states and operands that meet the hypotheses of the statements about slots, clause by clause. -/

open Sys2Proof Sys2Proof.Machine Sys2Proof.Claims

namespace Sys2Proof.Tests

set_option Elab.async false

/-! ### Encodings and the step -/

theorem witness_DecodeAndEncodeAgree : encode (.vins b 1 2 3) = some 0x13741083 ∧ 0x13741083 < 2 ^ 32 ∧ decode 0x13741083 = .ok (.vins b 1 2 3) := by
  decide +kernel

/-- ADD s5, s6, s7 alone in its bundle, where the next step runs it. -/
def sF : State := State.reset.withFetchWord 32 0x80105187
theorem witness_StepRunsDecoded : ∃ c x i, sF.agenda = [] ∧ sF.underWay = some (c, x) ∧ decode x.word = .ok i ∧ i.wf = true ∧ (∀ h k a, i ≠ .waitf h k a) ∧
    sF.core.errs = [] ∧ (let u : State := (({ sF with draw := sF.draw + 1 } : State).on c).atSlot x
    x.pos = 0 ∧ u.ctx.watchX (codeVa u.ctx.ctl.seg x.head) = none) :=
  ⟨0, ⟨0x80105187, 0, 0, 0, none⟩, .add ⟨true, 0⟩ 0 5 6 7, by decide +kernel, by decide +kernel, by decide +kernel, by decide +kernel, by intros; simp,
    by decide +kernel, by decide +kernel⟩
/-- A WAITF p1, s4 that has found its outcome. -/
def sFw : State := (State.reset.withFetchWord 32 0xD1220100).modPipe fun p => { p with waitf := some ⟨0, 0, 0, 0, 0, false, false, some true, 0⟩ }
theorem witness_StepRunsDecoded_waitf : ∃ c x i, sFw.agenda = [] ∧ sFw.underWay = some (c, x) ∧ decode x.word = .ok i ∧ i.wf = true ∧
    (let u : State := (({ sFw with draw := sFw.draw + 1 } : State).on c).atSlot x
    blocked i u = false ∧ u.ctx.watchX (codeVa u.ctx.ctl.seg x.head) = none) ∧ sFw.core.errs = [] :=
  ⟨0, ⟨0xD1220100, 0, 0, 0, none⟩, .waitf ⟨true, 0⟩ 1 4, by decide +kernel⟩
/-- An agenda that names an event at the last core of the domain. -/
theorem witness_StepRunsDecoded_event : ∃ s l c i rest, (s : State).agenda = .at_ l c i :: rest ∧ placeOk l = true ∧ c < 4 ∧ encode i = none :=
  ⟨{ State.reset with agenda := [.at_ ⟨15, 9, 19⟩ 3 .heartbeat] }, ⟨15, 9, 19⟩, 3, .heartbeat, [], rfl, by decide, by decide, by decide⟩

/-- A segment of two bundles, LI s1, −1 alone and ADD with NOP's word behind it in no bundle; issue stands at the second. -/
def sB : State := State.reset.modCtx fun c => { c with
  half := some { slotSeg 0 with code := [0x81F01FFF, 0x00105187, 0x92043042] }, ctl := { c.ctl with off := 1 } }
theorem witness_BundleLatched : ∃ g ws, sB.ctx.half = some g ∧ g.va = sB.ctx.ctl.seg ∧ sB.ctx.ctl.entry = false ∧ sB.ctx.ctl.bad = none ∧
    sB.ctx.ctl.tail = 0 ∧ sB.ctx.ctl.kern = none ∧ sB.ctx.ctl.depth = 0 ∧ sB.ctx.ctl.xfer = none ∧ sB.ctx.ctl.off < g.code.length ∧ sB.ctx.sys.watch = [] ∧
    g.bundle sB.ctx.ctl.off = some (ws, true) ∧ bundleFault g false false false true ws = none :=
  ⟨{ slotSeg 0 with code := [0x81F01FFF, 0x00105187, 0x92043042] }, [0x00105187, 0x92043042], by decide +kernel⟩

theorem witness_StepGoesOn : State.reset.agenda = [] ∧ step { State.reset with agenda := [.focus ⟨16, 0, 0⟩] } = .fault .noSuchPlace ∧
    step { State.reset with agenda := [.at_ ⟨0, 0, 0⟩ 4 .heartbeat] } = .fault .noSuchPlace := ⟨rfl, rfl, rfl⟩

/-! ### Scalar slots -/

/-- s1 names the last 128 bytes of the scratchpad, s2 those of accumulator memory, s3 the limits; handle 1 has one slot of one line at its top. -/
def sM : State := (State.reset.modCtx fun c => { c with regs := { c.regs with
    s := [(1, 0x3FFF80), (2, 0xFFF80), (3, 0x400000), (4, 0x100000), (5, 0x3FFFE0)]
    cb := [(1, { CBuf.reset with base := 0x3FFE00, ssize := 1, nslot := 1, wp := 1 }), (2, { CBuf.reset with base := 0x3FFE00, ssize := 1, nslot := 1 })] } }).modCore
  fun k => { k with spad := [(0x3FFF80, 0x11), (0x3FFFF0, 0x05), (0x3FFFFF, 0x80)] }

theorem witness_IntegerResults : ∃ i r, integerRow i sA = some r ∧ Runs i sA ∧ sA.rp r.guard.toNat = true ∧ Room sA [r.reg] :=
  ⟨.divs h 1 5 6 7, _, rfl, ⟨by decide +kernel, by decide +kernel⟩, by decide +kernel, by unfold Room; decide +kernel⟩
/-- The undo log holds 255 entries: there is room for one more. -/
def sFull (n : Nat) : State := sA.modPipe fun p => { p with undo := List.replicate n ⟨0, .base, .bits 0⟩ }
theorem witness_IntegerResults_full : ∃ r, integerRow (.add h 1 5 6 7) (sFull 255) = some r ∧ Runs (.add h 1 5 6 7) (sFull 255) ∧
    (sFull 255).rp r.guard.toNat = true ∧ Room (sFull 255) [r.reg] :=
  ⟨_, rfl, ⟨by decide +kernel, by decide +kernel⟩, by decide +kernel, by unfold Room; decide +kernel⟩
theorem witness_SelResult : Runs (.sel h 0 5 6 7) sA ∧ Runs (.sel h 2 5 6 7) sA ∧ Room sA [.s 5] :=
  ⟨⟨by decide +kernel, by decide +kernel⟩, ⟨by decide +kernel, by decide +kernel⟩, by unfold Room; decide +kernel⟩
theorem witness_FloatResults : ∃ i r, floatRow i sA = some r ∧ Runs i sA ∧ Room sA [r.reg] :=
  ⟨.ffma h 0 9 8 8, _, rfl, ⟨by decide +kernel, by decide +kernel⟩, by unfold Room; decide +kernel⟩
theorem witness_QueryResults : (∃ r, queryRow (.tlook h 5 6) sA = some r ∧ Runs (.tlook h 5 6) sA ∧ Room sA [r.reg]) ∧
    ∃ s r, queryRow (.tmop h 7 1 2 0) s = some r ∧ Runs (.tmop h 7 1 2 0) s ∧ Room s [r.reg] ∧ s.arrMine = true :=
  ⟨⟨_, rfl, ⟨by decide +kernel, by decide +kernel⟩, by unfold Room; decide +kernel⟩,
    State.reset.modArr fun r => { r with owner := some 0 }, _, rfl, ⟨by decide +kernel, by decide +kernel⟩, by unfold Room; decide +kernel, by decide +kernel⟩
theorem witness_GuardFalse : ∃ i r, integerRow i sA = some r ∧ sA.rp r.guard.toNat = false := ⟨.add h 2 5 6 7, _, rfl, by decide +kernel⟩
/-- A slot that issues on the first iteration only, in the second of an active level; and a SRND without its block. -/
def sQ : State := State.reset.modCtx fun c => { c with
  regs := { c.regs with lvl := [(0, { Level.reset with trip := 3, idx := 1 })] }, ctl := { c.ctl with depth := 1 } }
theorem witness_BlockedOrNotIssued : (∃ i, (encode i).isSome = true ∧ sQ.qIssues i.hd.q = false ∧ ∃ h n p e d, i = .br h n p e d) ∧
    (∃ i, (encode i).isSome = true ∧ sQ.qIssues i.hd.q = false ∧ ∃ h, i = .nop h) ∧
    ∃ i, held i sM = true ∧ ∀ h k a, i ≠ .waitf h k a :=
  ⟨⟨.br ⟨true, 1⟩ 0 0 1 0, by decide +kernel, by decide +kernel, _, _, _, _, _, rfl⟩, ⟨.nop ⟨true, 2⟩, by decide +kernel, by decide +kernel, _, rfl⟩,
    .cbwait h 2 1, by decide +kernel, by intros; simp⟩
theorem witness_ResultSlotFrame : (∃ r t, integerRow (.add h 1 5 6 7) sA = some r ∧ exec (.add h 1 5 6 7) sA = .next t) ∧
    (∃ r t, floatRow (.fadd h 0 5 8 9) sA = some r ∧ exec (.fadd h 0 5 8 9) sA = .next t) ∧
    ∃ r t, queryRow (.cyc h 5) sA = some r ∧ exec (.cyc h 5) sA = .next t := ⟨⟨_, _, rfl, rfl⟩, ⟨_, _, rfl, rfl⟩, _, _, rfl, rfl⟩

/-- One result in flight for a register, due in cycle 0. -/
def sL (r : RegId) : State := State.reset.modPipe fun p => { p with infl := [⟨0, 0, 1, 0, r, .bits (2 ^ 64 + 7), 0, fNX⟩] }
theorem witness_ResultLanding : ∀ r ∈ [RegId.s 0, .s 63, .p 0, .p 7, .v false 1023, .v true 0, .k false 0, .k true 7, .tm 0, .tm 7],
    (sL r).ctx.pipe.infl.filter (Landing.isDue (sL r).cyc) = [⟨0, 0, 1, 0, r, .bits (2 ^ 64 + 7), 0, fNX⟩] := by decide +kernel
/-- The landing of s63 keeps its low 64 bits and sets NX in SFLG; s0 discards it and the flag is set all the same. -/
theorem test_landing : (match exec .resultLanding (sL (.s 63)) with
      | .next t => t.ctx.regs.s == [(63, 7)] && t.ctx.sys.flg == [(0, fNX)] && t.ctx.pipe.infl.isEmpty | _ => false) = true ∧
    (match exec .resultLanding (sL (.s 0)) with | .next t => t.ctx.regs.s == [] && t.ctx.sys.flg == [(0, fNX)] | _ => false) = true := by decide +kernel
theorem witness_UndefinedWindow : ∃ s l, l ∈ (s : State).ctx.pipe.infl ∧ l.reg = .s 5 ∧ l.iss < s.cyc ∧ s.cyc < l.due :=
  ⟨(State.reset.modPipe fun p => { p with infl := [⟨2, 0, 1, 0, .s 5, .bits 0, 0, 0⟩] }).modCore fun k => { k with cycle := 1 },
    ⟨2, 0, 1, 0, .s 5, .bits 0, 0, 0⟩, by decide +kernel, by decide +kernel, by decide +kernel, by decide +kernel⟩

/-! ### Vector slots -/

theorem witness_LaneResults : ∃ i r, laneRow i sV = some r ∧ r.ok = true ∧ Runs i sV ∧ Room sV [sV.vreg r.h.cl r.d.toNat] :=
  ⟨.vadd b 3 1 2, _, rfl, by decide +kernel, ⟨by decide +kernel, by decide +kernel⟩, by unfold Room; decide +kernel⟩
theorem witness_MaskResults : ∃ i r, maskRow i sV = some r ∧ r.ok = true ∧ Runs i sV ∧ Room sV [.k r.h.cl r.m.toNat] :=
  ⟨.vcmplt q 7 1 2, _, rfl, by decide +kernel, ⟨by decide +kernel, by decide +kernel⟩, by unfold Room; decide +kernel⟩
theorem witness_CrossResults : ∃ i r, crossRow i sV = some r ∧ Runs i sV ∧ Room sV [r.reg] :=
  ⟨.vexts b 63 1 0, _, rfl, ⟨by decide +kernel, by decide +kernel⟩, by unfold Room; decide +kernel⟩

/-! ### Local memories -/

theorem witness_LocalLoads :
    (∃ x, localRow (.lds h 3 5 1 15) sM = some x ∧ x.sum < x.limit ∧ Runs (.lds h 3 5 1 15) sM ∧ Free sM x.addr x.n false ∧ Room sM [.s 5]) ∧
    (∃ x, localRow (.vld v 5 1 7 0) sM = some x ∧ x.sum < x.limit ∧ Runs (.vld v 5 1 7 0) sM ∧ Free sM x.addr x.n false ∧ Room sM [sM.vreg false 5]) ∧
    (∃ x, localRow (.vlda v 5 2 0) sM = some x ∧ x.sum < x.limit ∧ Runs (.vlda v 5 2 0) sM ∧ Room sM [sM.vreg false 5]) ∧
    Runs (.vldc v 5 1 0 3) sM ∧ Room sM [sM.vreg false 5] ∧ Free sM ((sM.cb 1).readLine 0 + 128 * 3) (vwidth v / 8) false := by
  unfold Runs Room Free
  exact ⟨⟨_, rfl, by decide +kernel⟩, ⟨_, rfl, by decide +kernel⟩, ⟨_, rfl, by decide +kernel⟩, by decide +kernel⟩
/-- The last eight bytes of the scratchpad, read as a word: R5's byte order. -/
theorem test_lds : (sent (.lds h 3 5 1 15) sM).map (fun x => (x.1, x.2.1, x.2.2.1)) = some (6, .s 5, 0x8000000000000000) := by decide +kernel
/-- A CPYC that fills handle 2 has issued. -/
def sMe : State := sM.modQ fun q => { q with cmds := [{ Cmd.reset with num := 1, kind := 3, cb := 2 }] }
theorem witness_LocalStores : sM.memoriesWf ∧ sM.core.copying none = [] ∧
    (∀ i ∈ ([.sts h 0 6 1 63, .vst v 6 1 0 0, .vsta v 6 2 0, .srst h 1 5] : List Instr), ∃ x, localRow i sM = some x ∧ x.sum < x.limit ∧ Runs i sM ∧
      (x.spad = true → Free sM x.addr x.n true)) ∧
    Runs (.vstc v 6 2 0 3) sM ∧ Free sM ((sM.cb 2).writeLine 0 + 128 * 3) (vwidth v / 8) true ∧ sM.engineFeeds 2 = false ∧
    sMe.memoriesWf ∧ Runs (.vstc v 6 2 0 3) sMe ∧ Free sMe ((sMe.cb 2).writeLine 0 + 128 * 3) (vwidth v / 8) true ∧ sMe.engineFeeds 2 = true := by
  refine ⟨⟨by decide +kernel, by decide +kernel, by decide +kernel⟩, by decide +kernel, ?_, by unfold Runs; decide +kernel, by unfold Free; decide +kernel, by decide +kernel,
    ⟨by decide +kernel, by decide +kernel, by decide +kernel⟩, by unfold Runs Free; decide +kernel⟩
  intro i hi
  simp only [List.mem_cons, List.not_mem_nil, or_false] at hi
  rcases hi with rfl | rfl | rfl | rfl <;> exact ⟨_, rfl, by unfold Runs Free; decide +kernel⟩
/-- STS of the low byte of s6 writes one byte and no other. -/
theorem test_sts : (match exec (.sts h 0 1 1 63) sM with
    | .next t => t.core.spad == [(0x3FFF80, 0x11), (0x3FFFBF, 0x80), (0x3FFFF0, 0x05), (0x3FFFFF, 0x80)] | _ => false) = true := by decide +kernel

/-! ### Registers written at issue -/

theorem witness_WrittenAtIssue :
    (∀ i ∈ ([.hclr h 3, .smerge h 3 0 0 1 2, .hwr h 3 1 1 2, .sradd h 3 62, .cbadvR h 1 1, .fmtw h 0] : List Instr), ∃ r, nowRow i sM = some r ∧ Runs i sM ∧ r.ok = true ∧ Room sM [r.reg]) ∧
    (∀ i ∈ ([.cbadvR h 1 2, .fmtw h 1] : List Instr), ∃ r, nowRow i sM = some r ∧ Runs i sM ∧ r.ok = false ∧ Room sM [r.reg] ∧ sM.ctx.pipe.fault = none) ∧
    (∃ r, nowRow (.smerge h 0 0 0 1 2) (sM.modRegs fun r => { r with fmt := 7 }) = some r ∧ Runs (.smerge h 0 0 0 1 2) (sM.modRegs fun r => { r with fmt := 7 }) ∧ r.ok = false) := by
  unfold Runs Room
  refine ⟨?_, ?_, ⟨_, rfl, by decide +kernel⟩⟩ <;>
  · intro i hi
    simp only [List.mem_cons, List.not_mem_nil, or_false] at hi
    rcases hi with rfl | rfl | rfl | rfl | rfl | rfl <;> exact ⟨_, rfl, by decide +kernel⟩
/-- Records with slot 0, and with slot 2^127, beyond 15. -/
theorem witness_WrittenAtIssue_srld :
    (∃ x, localRow (.srld h 1 0) sM = some x ∧ x.sum < x.limit ∧ Runs (.srld h 1 0) sM ∧ Free sM x.addr 32 false ∧
      leNat (sM.spadRead x.addr 32) / 2 ^ 128 ≤ 15 ∧ Room sM [.gen 1]) ∧
    ∃ x, localRow (.srld h 1 5) sM = some x ∧ x.sum < x.limit ∧ Runs (.srld h 1 5) sM ∧ Free sM x.addr 32 false ∧
      15 < leNat (sM.spadRead x.addr 32) / 2 ^ 128 ∧ Room sM [.gen 1] ∧ sM.ctx.pipe.fault = none := by
  unfold Runs Room Free
  exact ⟨⟨_, rfl, by decide +kernel⟩, _, rfl, by decide +kernel⟩

theorem witness_SequencerWrites :
    (∀ i ∈ ([.lpset h 5 1 4, .lpstrd h 5 3 62 1, .lpstrd h 0 0 0 1, .lpmod h 15 15, .lpmask h 7] : List Instr),
      (levelRow i sM).any (fun x => x.1 && !sM.undoFull [.lvl x.2.1]) = true ∧ Runs i sM ∧ sM.ctx.nestActive = false) ∧
    (∃ j v, levelRow (.lpset h 5 1 2) (sM.modRegs fun r => { r with s := [(2, 0x1000)] }) = some (false, j, v) ∧
      Runs (.lpset h 5 1 2) (sM.modRegs fun r => { r with s := [(2, 0x1000)] }) ∧ Room (sM.modRegs fun r => { r with s := [(2, 0x1000)] }) [.lvl j]) ∧
    ∃ ok j v, levelRow (.lpmask h 7) sQ = some (ok, j, v) ∧ Runs (.lpmask h 7) sQ ∧ sQ.ctx.nestActive = true ∧ Room sQ [.lvl j] ∧ sQ.ctx.pipe.fault = none := by
  unfold Runs Room
  exact ⟨by decide +kernel, ⟨_, _, rfl, by decide +kernel⟩, _, _, _, rfl, by decide +kernel⟩

/-- Six levels of one body, its last word the last of the segment; L0 tiled with 1024 iterations. -/
def sN : State := State.reset.modCtx fun c => { c with
  regs := { c.regs with lvl := (List.range 6).map fun j => (j, { Level.reset with trip := 1024, bstart := 1, bend := 2, tiled := j == 0, tm := 0 }) }
  half := some { slotSeg 0 with code := [0x80000000, 0x80000000, 0x80000000] } }
/-- The conditions of `Legal`, each over levels below `d` alone. -/
def legalNest (s : State) (d : Nat) : Prop :=
  s.ctx.nestActive = false ∧ (∀ j < d, (s.lvl j).bstart ≤ (s.lvl j).bend ∧ (s.lvl j).bend < s.seg.code.length) ∧
    (∀ j < d, 0 < j → (s.lvl j).bstart ≤ (s.lvl (j - 1)).bstart ∧ (s.lvl (j - 1)).bend ≤ (s.lvl j).bend) ∧
    ¬ ((s.lvl (d - 1)).bstart ≤ s.ctx.cur.off ∧ s.ctx.cur.off ≤ (s.lvl (d - 1)).bend) ∧
    ((s.lvl 0).tiled = true → 1 ≤ (s.lvl 0).trip ∧ (s.lvl 0).trip ≤ 1024)
theorem legal_iff (s : State) (d : Nat) : Legal s d ↔ legalNest s d :=
  ⟨fun h => ⟨h.idle, h.body, fun j a b => h.nested j b a, h.outside, h.trip⟩, fun ⟨a, b, c, e, f⟩ => ⟨a, b, fun j x y => c j y x, e, f⟩⟩
/-- A modulo L0 of two rows in two stages at interval 1: its words `a` and `b`. -/
def sNm (a b : Nat) : State := sN.modCtx fun c => { c with
  regs := { c.regs with lvl := [(0, { Level.reset with trip := 3, bstart := 1, bend := 2, modulo := true, ii := 1, st := 2 })] }
  half := some { slotSeg 0 with code := [0x80000000, a, b] } }
theorem witness_NestStarts : Runs (.lpgo h 6) sN ∧ (sN.lvl 0).modulo = false ∧ Legal sN 6 ∧ Room sN ((List.range 6).map RegId.lvl) := by
  rw [legal_iff]
  unfold Runs legalNest Room; decide +kernel
/-- Nests that may not start: one is active; BSTART above BEND, BEND at the end of the segment, L1 within L0, the LPGO in the body, TRIP 0 or 1025. -/
def badNests : List State :=
  let lvl (j : Nat) (f : Level → Level) : State := sN.modRegs fun r => { r with lvl := tset r.lvl j (f (sN.lvl j)) }
  [sN.modCtl fun c => { c with depth := 1, inside := [0] }, lvl 0 fun l => { l with bstart := 3 }, lvl 5 fun l => { l with bend := 3 }, lvl 1 fun l => { l with bstart := 2 },
    lvl 5 fun l => { l with bstart := 0 }, lvl 0 fun l => { l with trip := 0 }, lvl 0 fun l => { l with trip := 1025 }]
theorem witness_NestStarts_faults : ∀ s ∈ badNests, Runs (.lpgo h 6) s ∧ ¬ Legal s 6 ∧ (s.lvl 0).modulo = false ∧ Room s ((List.range 6).map RegId.lvl) ∧ s.ctx.pipe.fault = none := by
  simp only [legal_iff]
  unfold Runs legalNest Room; decide +kernel
/-- In a modulo L0: a NOP and a VADD, which merge into a bundle, and a NOP and an ADD, which do not: both are of class C. -/
theorem witness_NestStarts_modulo : Runs (.lpgo h 1) (sNm 0x80000000 0x92043042) ∧ Legal (sNm 0x80000000 0x92043042) 1 ∧ moduloFault (sNm 0x80000000 0x92043042) = none ∧
    Room (sNm 0x80000000 0x92043042) ((List.range 1).map RegId.lvl) ∧
    Runs (.lpgo h 1) (sNm 0x80000000 0x80105187) ∧ moduloFault (sNm 0x80000000 0x80105187) = some 68 ∧
    (sNm 0x80000000 0x80105187).ctx.pipe.fault = none := by
  rw [legal_iff]
  unfold Runs legalNest Room; decide +kernel
/-- Each of those is the fault 0x020B. -/
theorem test_lpgo_faults : ∀ s ∈ badNests, (match exec (.lpgo h 6) s with | .next t => t.ctx.pipe.fault.map (fun f => (f.code, f.faddr)) == some (0x020B, 0) | _ => false) = true := by
  decide +kernel
/-- The LPGO that starts the nest of six levels: 0x0107 is the fault of the other. -/
theorem test_lpgo : (match exec (.lpgo h 6) sN with | .next t => t.ctx.ctl.depth == 6 | _ => false) = true ∧
    (match exec (.lpgo h 1) (sNm 0x80000000 0x80105187) with | .next t => t.ctx.pipe.fault.map (fun f => (f.code, f.faddr)) == some (0x0107, 68) | _ => false) = true := by
  decide +kernel

/-! ### Control transfers -/

/-- Issue at the middle of three bundles; p1 = 1; vk1 mixed in its 32 lanes, wk1 all ones, vk2 zero. s63 names the last bundle, s2 a segment. -/
def sT : State := State.reset.modCtx fun c => { c with
  regs := { c.regs with p := [(1, true)], vk := [(1, 5), (2, 0)], wk := [(1, 0xFFFFFFFF)], s := [(2, 0x1040), (3, 0x1001), (63, 72)] }
  half := some { slotSeg 0 with code := [0x80000000, 0x80000000, 0x80000000], next := 0x2000, alt := 0 }
  ctl := { c.ctl with off := 1 }, cur := ⟨0x80000000, 1, 1, 0, none⟩ }
theorem witness_Transfers : sT.ctx.cur.iter = none ∧ (∀ i ∈ ([.br h 1 1 1 1, .ret h 0 1 1, .brk h 0 1 1 0, .brk h 0 0 2 0, .brk h 0 0 1 0, .seg h 0 1 1 0 0, .seg h 0 1 1 1 0,
      .seg h 0 1 1 2 2, .seg h 0 1 1 2 3, .call h 0 1 1 1] : List Instr), Runs i sT) ∧ sT.ctx.pipe.fault = none ∧ Room sT [.s 63] ∧
    (sT.rp 1 = true ∧ sT.rp 2 = false) ∧ sT.rk true 1 % 2 ^ 32 = 2 ^ 32 - 1 ∧ sT.rk false 2 % 2 ^ 32 = 0 ∧ sT.rk false 1 % 2 ^ 32 = 5 ∧
    Runs (.lpbrk h 0 1 1 0) sQ ∧ 0 < sQ.ctx.ctl.depth ∧ sQ.ctx.cur.iter = none ∧ Runs (.lpbrk h 0 1 1 0) sT ∧ sT.ctx.ctl.depth = 0 := by
  unfold Runs Room; decide +kernel
theorem witness_Targets : ((2 : Nat) : Int) = sT.ctx.cur.off + (1 : BitVec 15).toInt ∧ 2 < sT.seg.code.length ∧
    (sT.ctx.cur.off : Int) + (0x7FFE : BitVec 15).toInt < 0 ∧ (sT.seg.code.length : Int) ≤ sT.ctx.cur.off + (2 : BitVec 15).toInt ∧
    sT.ctx.ctl.seg % 64 = 0 ∧ (sT.rs 63).toNat = codeVa sT.ctx.ctl.seg 2 := by decide +kernel

end Sys2Proof.Tests
end

