-- ==== Sys2Proof/Tests/WitnessQueues.lean ====
section
/-! SUPPORT. Tests: states and operands that meet the hypotheses of the statements about queues, engines, the array and faults. -/

open Sys2Proof Sys2Proof.Machine Sys2Proof.Claims

namespace Sys2Proof.Tests

set_option Elab.async false

/-! ### Withheld effects and checkpoint bundles -/

/-- The hypotheses of WithheldEffects and CheckpointBundles that a row states: legal, aligned, unwatched, room for one more effect. -/
def meets (k : Option Kept) (s : State) : Bool :=
  k.any fun k => k.ok && k.addr % k.align == 0 && (k.seen.all fun a => (s.ctx.watchHit false k.rd true a k.bytes).isNone) && decide (s.ctx.pipe.held.length < 256)
/-- 255 effects withheld; s1 the last line of the address space, s2 and s3 operands of copies, s10 to s15 of a tile copy; vk1 on. -/
def sW : State := State.reset.modCtx fun c => { c with
  regs := { c.regs with s := [(1, 0xFFFFFFFFFFFFC0), (2, 0x80), (3, 0x600000080), (8, 0x3FFE00), (22, 0x600000000), (25, 0x200000000), (33, 0x900000000)] ++
    ([9, 10].map fun n => (n, 1)) ++ ([4, 5, 31, 32].map fun n => (n, 128)) ++ ([23, 24].map fun n => (n, 4)) }
  pipe := { c.pipe with held := List.replicate 255 ⟨0, 0, .gbar, false, 0⟩ } }
/-- The same with s1 zero; and with a buffer of one slot. -/
def sW1 : State := sW.modRegs fun r => { r with s := tset r.s 1 0 }
def sWc : State := sW.modCb 15 fun b => { b with nslot := 1 }
theorem witness_WithheldEffects : ∀ x ∈ ([(.stg h 5 1 1 2, sW), (.stgr h 3 0 6 1 2, sW), (.scat h 0 1 2 3, sW), (.atom h 7 3 1, sW), (.cpy h 1, sW1), (.cpyt h 20, sW), (.cpym h 0 1, sW1),
      (.cpyc h 15 30, sW), (.cbset h 15 8, sW), (.cbadvW h 15 1, sWc), (.coll h 1, sW), (.flagw h 31 6 1, sW)] : List (Instr × State)),
    meets (keptRow x.1 x.2) x.2 = true ∧ x.2.qIssues x.1.hd.q = true ∧ held x.1 x.2 = false := by decide +kernel

/-- 256 effects withheld: a 257th does not fit. And an address that is not aligned. -/
theorem witness_WithheldFaults : (∃ s k, keptRow (.stg h 3 0 1 2) s = some k ∧ Runs (.stg h 3 0 1 2) s ∧ s.ctx.pipe.fault = none ∧ 256 ≤ s.ctx.pipe.held.length) ∧
    (∃ s k, keptRow (.stg h 3 0 1 2) s = some k ∧ Runs (.stg h 3 0 1 2) s ∧ s.ctx.pipe.fault = none ∧ s.ctx.pipe.held.length < 256 ∧ k.ok = true ∧ k.addr % k.align ≠ 0) ∧
    (Runs (.eret h) State.reset ∧ State.reset.ctx.sys.h = false ∧ State.reset.inShadow = false ∧ State.reset.ctx.q.deferred = [] ∧
      State.reset.ctx.pipe.held.length < 256 ∧ State.reset.ctx.pipe.fault = none) ∧ State.reset.ctx.sys.bke = false := by
  unfold Runs
  exact ⟨⟨State.reset.modPipe fun p => { p with held := List.replicate 256 ⟨0, 0, .gbar, false, 0⟩ }, _, rfl, by decide +kernel⟩,
    ⟨State.reset.modRegs fun r => { r with s := [(1, 4)] }, _, rfl, by decide +kernel⟩, by decide +kernel⟩
/-- An FMTW's shadow: its value applies two bundles on. -/
def sS : State := State.reset.modCtx fun c => { c with regs := { c.regs with fmtq := [(8, 2)] }, sys := { c.sys with h := true, bke := true } }
theorem witness_WithheldFaults_shadow : ∀ i ∈ ([.syswr h 1 0x36, .watch h 0 1, .trap h 0, .bkpt h 0, .eret h] : List Instr),
    (sS.qIssues i.hd.q = true ∧ held i sS = false) ∧ sS.inShadow = true ∧ sS.ctx.pipe.fault = none ∧ sS.ctx.pipe.held.length < 256 ∧ sS.ctx.sys.bke = true ∧ sS.ctx.sys.h = true := by
  decide +kernel

/-- A handler with DBGCTL.BKE set, 255 effects withheld, and a failed copy that no bundle has reported. -/
def sK : State := sW.modCtx fun c => { c with sys := { c.sys with h := true, bke := true }, q := { c.q with deferred := [⟨0, 0, 1, 0x0301, 0⟩] } }
theorem witness_CheckpointBundles : (∀ i ∈ ([.atomr h 7 3 1 2, .atomx h 6 4 1 2, .deal h 62, .gbar h, .syswr h 1 0x48, .watch h 3 1, .trap h 4095, .bkpt h 4095, .eret h,
      .sqfork h 15 20 1, .sqapp h 16 20 1, .sqcommit h 0 20 1, .sqtrunc h 20 1, .sqcur h 20 1, .sqframe h 20 1] : List Instr),
      meets (bundleRow i sK) sK = true ∧ (sK.qIssues i.hd.q = true ∧ held i sK = false) ∧ ∀ d ∈ sK.ctx.q.deferred, d.ctr ≠ 5) ∧
    meets (bundleRow (.taskend h) sW) sW = true ∧ (sW.qIssues 0 = true ∧ held (.taskend h) sW = false) ∧ sW.ctx.q.deferred = [] := by decide +kernel

/-! ### Loads, pops and other queue slots -/

/-- `n` entries in the load data queue. -/
def sD (n : Nat) : State := sW.modQ fun q => { q with ldq := List.replicate n ⟨0, 0, 8, true, [1, 2, 3, 4, 5, 6, 7, 8], 0, 0⟩ }
theorem witness_LoadsSent : (∀ i ∈ ([.ldg h 5 1, .ldga h 0 1] : List Instr), ((sD 31).qIssues i.hd.q = true ∧ held i (sD 31) = false) ∧ (sD 31).ctx.q.ldq.length < 32 ∧
      va (sD 31) 1 % 2 ^ 5 = 0 ∧ ∀ a ∈ [va (sD 31) 1], (sD 31).ctx.watchHit false true false a 32 = none) ∧
    32 ≤ (sD 32).ctx.q.ldq.length ∧ (sD 32).ctx.pipe.fault = none ∧ va (sD 31) 4 % 2 ^ 7 = 0 ∧ va (sD 31) 9 % 2 ^ 1 ≠ 0 := by decide +kernel

/-- Page 5 of root 0 is page 7 of die 3 of package 0, readable; one load waits in the load queue. -/
def sG : State := (State.reset.modCore fun k => { k with tlb := [⟨0, 5, 16, 3 * 2 ^ 48 + 7 * 2 ^ 16 + 3, none⟩] }).modQ fun q => { q with
  ldq := [⟨1, 0, 8, false, [], 0, 0⟩], lq := [⟨1, 0, .load 0x50008 8 false, false⟩] }
theorem witness_LoadQueue : ∃ pa pte, sG.ctx.q.lq = [⟨1, 0, .load 0x50008 8 false, false⟩] ∧ 0x50008 < 2 ^ 56 ∧ sG.ctx.q.stq = [] ∧
    sG.lookup sG.focus (rootOf sG) 0x50008 = .ok pa pte ∧ pte.testBit 1 = true ∧ paStn pa < 10 ∧
    sG.die.unreachable sG.focus.pkg (paPkg pa) (paStn pa) = false ∧ (sG.route sG.focus.pkg sG.focus.die (paPkg pa) (paStn pa)).isSome = true ∧
    sG.canSend sG.focus sG.focus.core pa = true ∧ (tget Source.reset sG.die.src (srcKey sG.focus.core (paPkg pa) (paStn pa))).sent = [] :=
  ⟨3 * 2 ^ 48 + 7 * 2 ^ 16 + 8, 3 * 2 ^ 48 + 7 * 2 ^ 16 + 3, by decide +kernel⟩

/-- Full queues: a load of 8 bytes, a gather of two lanes, nine words at fi 0. -/
def sP : State := State.reset.modQ fun q => { q with
  ldq := [⟨1, 0, 8, true, [1, 2, 3, 4, 5, 6, 7, 0x88], 0, 0⟩]
  gdq := [⟨2, 0, 1, 4, [(0, [1, 0, 0, 0]), (31, [0, 0, 0, 0x80])], 0, true, 0, 0⟩]
  fi := [(0, ⟨(List.range 9).map fun i => ⟨BitVec.ofNat 128 (2 ^ 127 + i), 0, 0, none, 0⟩⟩)] }
theorem witness_PopResults : (∃ e t, Runs (.lpop h 0 5) sP ∧ sP.ctx.q.ldq = e :: t ∧ e.err = 0 ∧ Room sP [.s 5]) ∧
    (∃ e t, Runs (.gpop h 1 5) sP ∧ sP.ctx.q.gdq = e :: t ∧ e.err = 0 ∧ elemBits (fmtVF sP.fmt true) ∈ [8, 16, 32] ∧ Room sP [sP.vreg true 5]) ∧
    (Runs (.frd h 0 1 5 0) sP ∧ (∀ w ∈ (sP.fi 0).words.take 8, w.err = 0) ∧ Room sP [sP.vreg false 5]) ∧
    ∃ w, Runs (.frd h 0 0 62 0) sP ∧ (sP.fi 0).words.take 1 = [w] ∧ w.err = 0 ∧ Room sP [.s 62, .s 63] := by
  unfold Runs Room
  exact ⟨⟨_, _, by decide +kernel, rfl, by decide +kernel⟩, ⟨_, _, by decide +kernel, rfl, by decide +kernel⟩, by decide +kernel,
    _, by decide +kernel, rfl, by decide +kernel⟩
/-- Bytes 1 to 7 and 0x88 as a word; the last lane of a gather. -/
theorem test_pops : (sent (.lpop h 0 5) sP).map (fun x => (x.1, x.2.1, x.2.2.1)) = some (2, .s 5, 0x8807060504030201) ∧
    (sent (.gpop h 0 5) sP).map (fun x => (x.1, x.2.2.1)) = some (2, 0x80000000 * 2 ^ 992 + 1) := by decide +kernel
theorem witness_PopResults_faults : (Runs (.lpop h 0 5) State.reset ∧ State.reset.ctx.pipe.fault = none ∧ State.reset.ctx.q.ldq = []) ∧
    (Runs (.gpop h 0 5) State.reset ∧ State.reset.ctx.q.gdq = []) ∧
    (∃ s e l, Runs (.lpop h 0 5) s ∧ s.ctx.pipe.fault = none ∧ s.ctx.q.ldq = e :: l ∧ e.err ≠ 0 ∧ Room s [.s 5]) ∧
    ∃ s e l, Runs (.gpop h 0 5) s ∧ s.ctx.pipe.fault = none ∧ s.ctx.q.gdq = e :: l ∧ e.err ≠ 0 ∧ elemBits (fmtVF s.fmt false) ∈ [8, 16, 32] ∧ Room s [s.vreg false 5] := by
  unfold Runs Room
  exact ⟨by decide +kernel, by decide +kernel, ⟨State.reset.modQ fun q => { q with ldq := [⟨1, 0, 8, true, [], 0x0301, 16⟩] }, _, _, by decide +kernel, by decide +kernel, rfl, by decide +kernel⟩,
    State.reset.modQ fun q => { q with gdq := [⟨1, 0, 1, 4, [], 0, true, 0x0301, 16⟩] }, _, _, by decide +kernel, by decide +kernel, rfl, by decide +kernel⟩

theorem witness_QueueSlots : (∀ i ∈ ([.gpush h 0 2 3, .fwr h 0 0 2 0, .qdrop h 0 1, .qdrop h 1 0, .tset h 7 1 2, .tclr h 7 1, .qmark h, .fence h 6, .yield h, .ckpt h, .mrel h] : List Instr),
      (sP.qIssues i.hd.q = true ∧ held i sP = false) ∧ sP.ctx.pipe.fault = none) ∧
    (sP.ctx.q.gdq.length < 64 ∧ va sP 2 % 4 = 0 ∧ ∀ a ∈ ((List.range 32).filter fun l => lane (sP.rv false 3) 32 l ≠ 2 ^ 32 - 1).map (fun l => (va sP 2 + lane (sP.rv false 3) 32 l * 4) % 2 ^ 56),
      sP.ctx.watchHit false true false a 4 = none) ∧
    (Runs (.qdrop h 0 2) sP ∧ sP.ctx.q.ldq.length < 2) ∧ (∀ d ∈ sP.ctx.q.deferred, d.ctr ≠ 5) ∧ sP.inShadow = false ∧
    (Runs (.ckpt h) sS ∧ sS.inShadow = true ∧ sS.ctx.pipe.fault = none) ∧
    (Runs (.mrel h) (sP.modArr fun r => { r with owner := some 0 }) ∧ (sP.modArr fun r => { r with owner := some 0 }).arrMine = true) := by
  unfold Runs; decide +kernel
/-- The pops of `sP` under a VF of 64-bit elements. -/
theorem witness_PopResults_format : let s := sP.modCtx fun c => { c with regs := { c.regs with fmt := 7 } }
    Runs (.gpop h 0 5) s ∧ s.ctx.pipe.fault = none ∧ s.ctx.q.gdq ≠ [] ∧ Room s [s.vreg false 5] ∧ elemBits (fmtVF s.fmt false) ∉ [8, 16, 32] := by
  unfold Runs Room; decide +kernel
/-- A gather queue of 64 entries, and an FMT whose elements are of one byte. -/
theorem witness_QueueSlots_gpush : (let s := sP.modQ fun q => { q with gdq := List.replicate 64 ⟨2, 0, 1, 4, [], 0, true, 0, 0⟩ }
    Runs (.gpush h 0 2 3) s ∧ 64 ≤ s.ctx.q.gdq.length ∧ s.ctx.pipe.fault = none) ∧ elemBits (fmtVF sP.fmt false) / 8 ∈ [1, 2, 4] := by
  unfold Runs; decide +kernel
/-- The first word of a packet in fo 0, which announces no packet of one word; and a LOADREQ of 8 bytes at a page in the TLB. -/
theorem witness_QueueSlots_fwr : (∃ s z b, Runs (.fwr h 0 0 2 0) s ∧ (s.fo 0).build = z :: b ∧ ¬ (b = [] ∧ bits z.toNat 3 0 = 4) ∧ b.length + 2 ≠ foNeed z) ∧
    ∃ s : State, Runs (.fwr h 0 0 2 0) s ∧ (match s.foPush 0 (s.fwrWords 0 2 0) with | .ok u => decide ((u.fo 0).held = 1) | .error _ => false) = true := by
  unfold Runs
  exact ⟨⟨State.reset.modQ fun q => { q with fo := [(0, { Fo.reset with held := 1, build := [BitVec.ofNat 128 (3 + 128 * 256)] })] }, _, _, by decide +kernel, rfl, by decide +kernel⟩,
    sG.modRegs fun r => { r with s := [(2, BitVec.ofNat 64 (1 + 8 * 256 + 0x50008 * 65536))] }, by decide +kernel⟩

theorem witness_WaitsPass : (Runs (.cbwait h 1 1) sM ∧ (1 : BitVec 9).toNat ≤ (sM.cb (1 : BitVec 4).toNat).nslot) ∧
    (Runs (.cbwait h 1 2) sM ∧ (sM.cb (1 : BitVec 4).toNat).nslot < (2 : BitVec 9).toNat ∧ sM.ctx.pipe.fault = none) ∧
    (Runs (.tlwait h 4 1 0 1 0) sM ∧ Runs (.tllag h 0 0 3 1 63) sM ∧ ∀ d ∈ sM.ctx.q.deferred, d.ctr ≠ (4 : BitVec 3).toNat) := by
  unfold Runs; decide +kernel
theorem witness_WaitsPass_waitf : (∃ w r, sFw.qIssues 0 = true ∧ sFw.ctx.pipe.waitf = some w ∧ w.result = some r ∧ w.err = 0 ∧ Room sFw [.p 1]) ∧
    (∃ s w r, (s : State).qIssues 0 = true ∧ s.ctx.pipe.waitf = some w ∧ w.result = some r ∧ w.err ≠ 0 ∧ s.ctx.pipe.fault = none) ∧
    (sF.qIssues 0 = true ∧ sF.ctx.pipe.waitf = none ∧ va sF 4 % 8 = 0) := by
  unfold Room
  exact ⟨⟨⟨0, 0, 0, 0, 0, false, false, some true, 0⟩, true, by decide +kernel⟩,
    ⟨State.reset.modPipe fun p => { p with waitf := some ⟨0, 0, 0, 0, 0, false, false, some false, 0x0301⟩ }, ⟨0, 0, 0, 0, 0, false, false, some false, 0x0301⟩, false,
      by decide +kernel⟩, by decide +kernel⟩

/-! ### Sort unit, generator, array -/

theorem witness_SortResults : Runs (.hrd h 3 1 2 1 5) sV ∧ Room sV [sV.vreg true 5] ∧ Runs (.ssort h 0 1 1 5) sV ∧ (fmtVF sV.fmt false = 0 ∨ fmtVF sV.fmt false = 8) ∧
    Room sV [sV.vreg false 5] := by unfold Runs Room; decide +kernel
/-- The two highest keys of lanes −5, −2, 1, 4, …: mask 0xA5 leaves lanes 0, 2, 5, 7 in the order 7, 5, 2, 0. -/
theorem test_ssort : (sent (.ssort h 0 1 1 5) sV).map (fun x => (x.1, x.2.2.1 % 2 ^ 160)) = some (6, 0xFFFFFFFF00000000000000020000000500000007) := by decide +kernel
/-- Generator 1 with its block in the lookahead; generator 2 of an empty key slot. -/
def sR : State := (State.reset.modRegs fun r => { r with gen := [(1, ⟨5, 0, [(0, 5, 0x00112233445566778899AABBCCDDEEFF)]⟩), (2, ⟨5, 15, []⟩)] })
theorem witness_RandomBlock : (∃ b, Runs (.srnd h 1 62) sR ∧ (sR.gen 1).block = some b ∧ Room sR [.gen 1, .s 62, .s 63]) ∧
    Runs (.srnd h 2 62) sR ∧ (sR.gen 2).block = none ∧ sR.die.key (sR.gen 2).slot = none ∧ sR.ctx.pipe.fault = none := by
  unfold Runs Room
  exact ⟨⟨0x00112233445566778899AABBCCDDEEFF, by decide +kernel⟩, by decide +kernel⟩

/-- Context 0 owns the array; MC is FP32; ones at the end of the scratchpad, where a cell program of ones is not valid. -/
def sO : State := ((State.reset.modArr fun r => { r with owner := some 0 }).modRegs fun r => { r with s := [(1, 0x3FFFC0), (2, 0x1FFF), (3, 1)] }).modCore fun k => { k with
  spad := (List.range 64).map fun i => (0x3FFFC0 + i, 0xFF) }
theorem witness_ArrayItems : (∀ i ∈ ([.mshift h 2 2, .mdrain h 2, .mscout h 7 7, .mcfg h 0, .mthr h 3] : List Instr),
      (itemRow i sO).any (·.1) = true ∧ (sO.qIssues i.hd.q = true ∧ held i sO = false)) ∧ sO.arrMine = true ∧ Room sO [.tm 7] ∧ Runs (.mclr h) sO ∧ Room sO [.zc] := by
  unfold Runs Room; decide +kernel
theorem witness_ArrayItems_mcell : Runs (.mcell h 1) sO ∧ sO.arrMine = true ∧ (sO.rs 1).toNat < 2 ^ 22 ∧ bankOf (0x3FFFC0 / 64 * 64) ∉ sO.ctx.claims ∧
    progOk (leNat (sO.spadRead 0x3FFFC0 64)) = false ∧ sO.ctx.pipe.fault = none ∧
    Runs (.mcell h 0) sO ∧ progOk (leNat (sO.spadRead 0 64)) = true := by unfold Runs; decide +kernel

/-- Handles 0 and 1 with one filled slot of nine lines, in different groups; MA and MB are FP32; tm1 is off. -/
def sE : State := (State.reset.modArr fun r => { r with owner := some 0 }).modRegs fun r => { r with
  cb := [(0, { CBuf.reset with base := 0, ssize := 9, nslot := 1, wp := 1 }), (1, { CBuf.reset with base := 0x100000, ssize := 9, nslot := 1, wp := 1 })] }
/-- The pair that a feed finds is ready, with free banks in two groups; an MPUSHZ finds none among eight, and takes the ninth. -/
def feeds (z : Bool) (s : State) : Bool :=
  match s.feed z 0 1 7 0 with
  | .pair L seen =>
    let may := if z then List.range 9 else [0]
    let banks := feedBanks z (s.cb 0) false may ++ feedBanks z (s.cb 1) false may
    decide banks.Nodup && (banks.all fun x => !s.ctx.claims.contains x) && ((s.cb 0).feedGroups may).all (fun x => !((s.cb 1).feedGroups may).contains x) &&
      (!z || decide (L = 8 ∧ seen.length = 8))
  | _ => false
theorem witness_Feeds : (Runs (.mpush h 0 1 0 7 7 0) sE ∧ Runs (.mpushz h 0 1 0 7 7 0) sE ∧ sE.gated 0 7 = false ∧ feeds false sE = true ∧ feeds true sE = true) ∧
    sE.arrMine = true ∧ Room sE [.zc] ∧ isDX (fmtMA sE.fmt) = false ∧ isDX (fmtMB sE.fmt) = false ∧
    ((1 : BitVec 3) ≠ 0 ∧ (sE.rtm 1).testBit 0 = false) := by
  unfold Room Runs; decide +kernel

theorem witness_SlotFaults :
    (∃ r, integerRow (.add h 1 5 6 7) (sFull 256) = some r ∧ Runs (.add h 1 5 6 7) (sFull 256) ∧ (sFull 256).rp r.guard.toNat = true ∧ (sFull 256).undoFull [r.reg] = true ∧
      (sFull 256).ctx.pipe.fault = none) ∧
    (∃ r, laneRow (.vexp2 v 3 1) sV = some r ∧ r.ok = false ∧ Room sV [sV.vreg r.h.cl r.d.toNat] ∧ Runs (.vexp2 v 3 1) sV ∧ sV.ctx.pipe.fault = none) ∧
    (∃ s r, maskRow (.vcmplt v 3 1 2) s = some r ∧ r.ok = false ∧ Room s [.k r.h.cl r.m.toNat] ∧ Runs (.vcmplt v 3 1 2) s) ∧
    (∃ x, localRow (.vld v 5 3 0 0) sM = some x ∧ Runs (.vld v 5 3 0 0) sM ∧ x.limit ≤ x.sum ∧ Room sM (localWrites (.vld v 5 3 0 0) sM) ∧ sM.ctx.pipe.fault = none) ∧
    (∃ x, localRow (.vsta v 5 4 0) sM = some x ∧ Runs (.vsta v 5 4 0) sM ∧ x.limit ≤ x.sum ∧ Room sM (localWrites (.vsta v 5 4 0) sM)) ∧
    (∃ s x, localRow (.sts h 3 5 0 0) s = some x ∧ Runs (.sts h 3 5 0 0) s ∧ x.sum < x.limit ∧ x.spad = true ∧ bankOf x.addr ∈ s.ctx.claims) ∧
    ∀ i ∈ ([.mpush h 0 1 0 7 7 0, .mpushz h 0 1 0 7 7 0, .mshift h 1 0, .mdrain h 1, .mscout h 1 0, .mcell h 1, .mcfg h 1, .mthr h 1, .tmop h 1 2 3 0, .mrel h] : List Instr),
      (State.reset.qIssues i.hd.q = true ∧ held i State.reset = false) ∧ State.reset.arrMine = false ∧ State.reset.ctx.pipe.fault = none ∧ State.reset.ctx.claims = [] ∧ Room State.reset [.tm 1] := by
  unfold Runs Room
  exact ⟨⟨_, rfl, by decide +kernel⟩, ⟨_, rfl, by decide +kernel⟩, ⟨State.reset.modRegs fun r => { r with fmt := 14 }, _, rfl, by decide +kernel⟩,
    ⟨_, rfl, by decide +kernel⟩, ⟨_, rfl, by decide +kernel⟩, ⟨State.reset.taking [0], _, rfl, by decide +kernel⟩, by decide +kernel⟩

end Sys2Proof.Tests
end

