-- ==== Sys2Proof/Tests/WitnessEvents.lean ====
section
/-! SUPPORT. Tests: states that meet the hypotheses of the statements about faults, requests and their answers, the host and the units of a die. -/

open Sys2Proof Sys2Proof.Machine Sys2Proof.Claims

namespace Sys2Proof.Tests

set_option Elab.async false

/-! ### Handlers -/

/-- A binding with a handler at 0xFFFFFFFFFFFFC0, the last line of the address space. -/
def hb : Bind := ⟨0x4000, 0, 0x2000, 0xFFFFFFFFFFFFC0, 0x10000, false, 0, 0, none, false, false, 0⟩
/-- A fault found in the bundle at 0x10004, due at once; and one due in cycle 1. -/
def sDue : State := (State.reset.modCtx fun c => { c with bind := some hb }).modPipe fun p => { p with fault := some ⟨0x0303, 0, 0, 7, 0x10004, 0x33, none, none⟩ }
theorem witness_HandlerEntry : ∃ f, sDue.faultNow = some f ∧ f.code ≠ 0x0503 ∧ sDue.ctx.bind = some hb ∧ hb.handler ≠ 0 ∧ sDue.ctx.sys.h = false :=
  ⟨⟨0x0303, 0, 0, 7, 0x10004, 0x33, none, none⟩, by decide +kernel⟩
/-- The same fault in the handler itself, of a leaf whose policy is 1. -/
def sDueIn : State := { sDue.modCtx fun c => { c with sys := { c.sys with h := true } } with
  regions := [{ State.reset.parseBlock 0x4000 [] none 0 0 0x4000 with kind := 2, state := 2, policy := 1 }] }
theorem witness_HandlerEntry_policy : (∃ f r, sDueIn.faultNow = some f ∧ sDueIn.ctx.bind = some hb ∧ sDueIn.region? hb.blk = some r ∧ r.policy ≠ 2 ∧ sDueIn.ctx.sys.h = true) ∧
    State.reset.faultNow = none ∧ State.reset.trapReady = none ∧ State.reset.ctx.mchk = none :=
  ⟨⟨⟨0x0303, 0, 0, 7, 0x10004, 0x33, none, none⟩, { State.reset.parseBlock 0x4000 [] none 0 0 0x4000 with kind := 2, state := 2, policy := 1 }, by decide +kernel⟩, by decide +kernel⟩
/-- FCODE holds code and FSLOT the position after the entry. -/
theorem test_fault_entry : (match exec .faultReport sDue with
    | .next t => decide (t.ctx.sys.fcode = 0x0303 ∧ t.ctx.sys.faddr = 0x33 ∧ t.ctx.sys.fslot = 7 ∧ t.ctx.sys.h = true ∧ t.ctx.ctl.seg = 0xFFFFFFFFFFFFC0) | _ => false) = true := by
  decide +kernel
/-- A TRAP of code 0xFFF whose bundle has confirmed. -/
def sTrap : State := (State.reset.modCtx fun c => { c with bind := some hb }).modPipe fun p => { p with wait := [⟨0, 0x10000, 0, .trap 0x0801 0xFFF 0x10000 0⟩] }
theorem witness_HandlerEntry_trap : sTrap.faultNow = none ∧ sTrap.trapReady = some (0x0801, 0xFFF, 0x10000, 0) ∧ sTrap.ctx.bind = some hb ∧ hb.handler ≠ 0 ∧
    sTrap.ctx.sys.h = false := by decide +kernel
/-- An ERET whose bundle has confirmed; the program held aside stands at 0x8000. -/
def sRet : State := (State.reset.modCtx fun c => { c with bind := some hb, aside := some ({ Ctl.reset with seg := 0x8000 }, [], 991) }).modCtx fun c => { c with
  sys := { c.sys with h := true }, pipe := { c.pipe with wait := [⟨0, 0x10000, 0, .eret⟩] } }
theorem witness_HandlerReturn : sRet.ctx.confirmDue sRet.cyc = none ∧ sRet.eretReady = true ∧ sRet.ctx.aside = some ({ Ctl.reset with seg := 0x8000 }, [], 991) := by decide +kernel

/-! ### Requests at their station -/

/-- Die 7 of package 15 is READY, with HBM up to 2 MiB; byte 0x1FFFFF holds 0x80. Die 9 is READY as well. -/
def dHome : Die := { Die.reset with boot := .ready, regs := { DevRegs.reset with hbmtop := 32 }, store := { Store.reset with mem := [(0x1FFFF8, 5), (0x1FFFFF, 0x80)] } }
def sHome : State := { State.reset with dies := [(dieKey 15 7, dHome), (dieKey 15 9, { Die.reset with boot := .ready })] }
/-- A request for the last 8 bytes below HBMTOP, from core 19 of die 9 of package 15. -/
def pk8 (typ : Nat) (data : List Byte) : Packet := { blankPacket with typ := typ, size := 8, dest := mkPa 15 7 0x1FFFF8, spkg := 15, sstn := 9, agent := 19, data := data }
theorem sHome_wf : sHome.memoriesWf := ⟨by decide +kernel, by decide +kernel, by decide +kernel⟩
theorem witness_RequestsApplied : Calm sHome ∧ Taken sHome (pk8 1 []) ∧ Clean sHome (pk8 1 []).enc (pk8 1 []).dest (pk8 1 []).size ∧ sHome.heldLine (pk8 1 []).dest = none ∧ (pk8 1 []).typ = 1 ∧
    (pk8 1 []).dest % 64 + (pk8 1 []).size ≤ 64 ∧ Taken sHome (pk8 3 [1, 2, 3, 4, 5, 6, 7, 8]) ∧ (pk8 3 [1, 2, 3, 4, 5, 6, 7, 8]).data.length = 8 := by
  unfold Calm Taken Clean WayBack; decide +kernel
/-- A STORELAST whose flag is the word below its data; and one whose flag lies in its data. -/
def pkLast (f : Nat) : Packet := { pk8 4 [1, 2, 3, 4, 5, 6, 7, 8] with faddr := f }
theorem witness_RequestsApplied_last : ∀ f ∈ [mkPa 15 7 0x1FFFF0, mkPa 15 7 0x1FFFF8], Taken sHome (pkLast f) ∧ Clean sHome true (pkLast f).dest 8 ∧ Clean sHome true f 8 := by
  unfold Taken Clean WayBack; decide +kernel
theorem witness_RequestsApplied_flag : ∀ f ∈ [mkPa 15 7 0x1FFFF0, mkPa 15 7 0x1FFFF8], let pk := pkLast f
    pk.enc = true ∧ pk.size = 8 ∧ pk.faddr = f ∧ pk.data.length = pk.size ∧ paPkg pk.faddr = paPkg pk.dest ∧ paStn pk.faddr = paStn pk.dest ∧ pk.fwd = 0 ∧ Calm sHome ∧
      (∀ e ∈ sHome.dies, e.2.xfers = []) ∧ sHome.heldLine pk.faddr = none ∧ sHome.transferQueued pk = false := by unfold Calm; decide +kernel
/-- An engine holds the last line below HBMTOP; and a request for the last two bytes of a line and the first of the next. -/
def sHot : State := sHome.modDieAt 15 7 fun d => { d with hot := [(31, [mkPa 15 7 0x1FFFC0 / 64]), ((atomicEngine (mkPa 15 7 0x1FFFC0)).2.2, [mkPa 15 7 0x1FFFC0 / 64])] }
theorem witness_RequestsApplied_held : (∃ e, Taken sHot (pk8 3 []) ∧ sHot.isReg (pk8 3 []).dest = false ∧ (pk8 3 []).size + (pk8 3 []).dest % 64 ≤ 64 ∧ sHot.heldLine (pk8 3 []).dest = some e) ∧
    let pk : Packet := { pk8 1 [] with dest := mkPa 15 7 0x1FFFBE }
    Taken sHome pk ∧ sHome.isReg pk.dest = false ∧ 64 < pk.size + pk.dest % 64 := by
  unfold Taken WayBack; exact ⟨⟨_, by decide +kernel, by decide +kernel, by decide +kernel, rfl⟩, by decide +kernel⟩
/-- The answer to the load holds the eight bytes; after the store the first and last byte are the new ones. -/
theorem test_request_applied : (match exec (.loadreq (pk8 1 []) false) sHome with
      | .next t => t.todo.map (fun x => match x.i with | .loadresp r => (r.typ, r.aux, r.data) | _ => (0, 0, [])) == [(2, 0, [5, 0, 0, 0, 0, 0, 0, 0x80])] | _ => false) = true ∧
    (match exec (.store (pk8 3 [1, 2, 3, 4, 5, 6, 7, 8]) false) sHome with
      | .next t => (t.dieAt 15 7).store.mem == [(0x1FFFF8, 1), (0x1FFFF9, 2), (0x1FFFFA, 3), (0x1FFFFB, 4), (0x1FFFFC, 5), (0x1FFFFD, 6), (0x1FFFFE, 7), (0x1FFFFF, 8)] | _ => false) = true := by
  decide +kernel

/-- An atomic compare-and-swap of 8 bytes at the queue's head, from the die itself: it compares with the bytes that stand there. -/
def pkAt : Packet := { pk8 5 ([9, 0, 0, 0, 0, 0, 0, 0] ++ [5, 0, 0, 0, 0, 0, 0, 0x80]) with aux := 8 * 7 + 1 }
def sAt : State := { State.reset with focus := ⟨15, 7, 0⟩, dies := [(dieKey 15 7, { dHome with atomq := [(4, [pkAt])] }), (dieKey 15 9, { Die.reset with boot := .ready })] }
theorem witness_AtomicsApplied : (Taken sHome pkAt ∧ paStn pkAt.dest ≤ 7 ∧ pkAt.typ = 5 ∧ sHome.portWindow pkAt.dest = false ∧ Calm sAt ∧ pkAt.part = 0 ∧ WayBack sAt pkAt) ∧
    (tget [] sAt.die.atomq 4 = [pkAt] ∧ paPkg pkAt.dest = sAt.focus.pkg ∧ paStn pkAt.dest = sAt.focus.die ∧ Clean sAt pkAt.enc pkAt.dest pkAt.size ∧ (home sAt pkAt.dest).regs.mw = [] ∧
      pkAt.size = (if pkAt.aux % 8 = 0 ∨ pkAt.aux % 8 = 2 ∨ pkAt.aux % 8 = 4 then 4 else 8) ∧ pkAt.data.length = 16) := by unfold Calm Taken Clean WayBack; decide +kernel
theorem witness_AtomicsApplied_wf : sAt.memoriesWf := ⟨by decide +kernel, by decide +kernel, by decide +kernel⟩
theorem test_cas : (match exec (.atomicEngineApply 4) sAt with | .next t => (t.dieAt 15 7).store.mem == [(0x1FFFF8, 9)] | _ => false) = true := by decide +kernel

theorem witness_Refusals : ∀ rc : Bool, (home sHome (pk8 1 []).dest).boot = .ready ∧ (home sHome (pk8 1 []).dest).bypassed = false ∧
    ({ pk8 1 [] with seq := 65535, rc := rc } : Packet).seq ≠ (home sHome (pk8 1 []).dest).expected { pk8 1 [] with seq := 65535, rc := rc } ∧ (pk8 1 []).own = false ∧
    WayBack sHome (pk8 1 []) ∧ sHome.lineQueued (pk8 1 []).dest 64 = false := by unfold WayBack; decide +kernel
/-- The first entry: code 0x0403, agent 19, station 9, package 15. -/
theorem test_undefined_packet : (match exec (.undefinedPacket (pk8 11 [])) sHome with
    | .next t => (t.dieAt 15 7).regs.elogcnt == 1 && (tget (0, 0, 0, 0) (t.dieAt 15 7).regs.elog 0).1 == 0xF900130403 | _ => false) = true := by decide +kernel

/-- Member 1 of two, with two elements of FP32, of core 3 of die 9 of package 15, in context 2; the group's slot buffer is page 1 of root 0, at 0x100000 of the die. -/
def kColl : CollOp := { CollOp.reset with num := 5, released := true, started := true, blk := [0x10000, 0, 0, 0, 0, 2, 2, 1, 0, 0, 0] }
def sColl : State := (sHome.modCtxAt ⟨15, 9, 3⟩ 2 fun c => { c with q := { c.q with colls := [kColl] } }).modDieAt 15 7 fun d => { d with
  tlb := [⟨0, 1, 16, mkPa 15 7 0x100000 + 0x187, none⟩] }
def pkColl : Packet := { blankPacket with
  typ := 7, size := 8, dest := mkPa 15 7 0x100000, spkg := 15, sstn := 9, agent := 40, sctx := 2, fval := 2 ^ 16, id := idColl 5 3, data := [1, 2, 3, 4, 5, 6, 7, 8] }
theorem witness_ContributionLands : ∃ l slot pte k, sColl.collSource pkColl = some (l, k) ∧
    (let idx := pkColl.fval / 2 ^ 16 % 2 ^ 16
    let va := collSlot k.blk (pkColl.fval % 2 ^ 16) idx (pkColl.fval / 2 ^ 32 * collSize (blkFmt k.blk))
    Calm sColl ∧ Taken sColl pkColl ∧ pkColl.typ = 7 ∧ sColl.collAhead pkColl = 0 ∧ (home sColl pkColl.dest).colls = [] ∧
    0 < idx ∧ 0 < blkN k.blk ∧ va % 65536 + pkColl.data.length ≤ 65536 ∧ sColl.lookup ⟨paPkg pkColl.dest, paStn pkColl.dest, 20⟩ k.root (va % 2 ^ 56) = .ok slot pte ∧
    pte.testBit 2 = true ∧ paPkg slot = paPkg pkColl.dest ∧ paStn slot = paStn pkColl.dest ∧ paOff pkColl.dest + 64 ≤ paOff slot ∧
    mapsNothing pte = false ∧ (home sColl pkColl.dest).queued = [] ∧ Clean sColl (pteEnc pte) slot pkColl.data.length) :=
  ⟨locKey ⟨15, 9, 3⟩, mkPa 15 7 0x100048, mkPa 15 7 0x100000 + 0x187, kColl, by decide +kernel, by unfold Calm Taken Clean WayBack; decide +kernel⟩
theorem witness_ContributionLands_wf : sColl.memoriesWf := ⟨by decide +kernel, by decide +kernel, by decide +kernel⟩

/-! ### Answers at their source -/

/-- A context of core 19 of die 9 of package 15 with one load, one store or one atomic out to die 7, `a` times refused; the core has counted 2^20 cycles. -/
def sSrc (q : Packet) (a b : Nat) (f : Queues → Queues) : State :=
  (({ State.reset with focus := ⟨15, 9, 19⟩, dies := [(dieKey 15 9, { Die.reset with src := [(srcKey 19 15 7, ⟨1, [(q, a, b)], [], []⟩)] })] } : State).modCore
    fun k => { k with cycle := 2 ^ 20 }).modCtxAt ⟨15, 9, 19⟩ 0 fun c => { c with q := f c.q }
/-- A request as it was sent. -/
def out8 (typ id : Nat) : Packet := { pk8 typ [] with id := id }
/-- Load 3 and its entry. -/
def sLd (a b : Nat) : State := sSrc (out8 1 (idLoad 3)) a b fun q => { q with ldq := [⟨3, 0, 8, false, [], 0, 0⟩] }
theorem witness_AnswersDelivered_load : ∀ aux ∈ [0, 1, 6], let pk : Packet := { out8 2 (idLoad 3) with aux := aux }
    Sole (sLd 0 0) pk (out8 1 (idLoad 3)) 0 0 ∧ pk.id = idLoad 3 ∧ (owner (sLd 0 0) pk).q.lq = [] ∧ (pk.aux = 0 ∨ 1 ≤ pk.aux ∧ pk.aux ≤ 6) ∧ (owner (sLd 0 0) pk).q.dropped = [] := by
  unfold Sole; decide +kernel
/-- Store 3, in the store queue. -/
def sSt : State := sSrc (out8 3 (idStore 3 0)) 0 0 fun q => { q with stq := [⟨3, 0, 0, 0, .store 0x33 [1] none, true⟩] }
theorem witness_AnswersDelivered_store : ∀ aux ∈ [0, 1, 6], let pk : Packet := { out8 10 (idStore 3 0) with aux := aux }
    Sole sSt pk (out8 3 (idStore 3 0)) 0 0 ∧ pk.id = idStore 3 0 ∧ (owner sSt pk).q.lq = [] ∧ (owner sSt pk).q.stq = [⟨3, 0, 0, 0, .store 0x33 [1] none, true⟩] ∧
      (pk.aux = 0 ∨ 1 ≤ pk.aux ∧ pk.aux ≤ 6) := by unfold Sole; decide +kernel
/-- An ATOMR to s63 and, beside it, the tlm number it took. -/
def sAtr : State := sSrc (out8 5 (idStore 3 0)) 0 0 fun q => { q with stq := [⟨3, 0, 0, 0, .atom 7 0 0 0x30 1 0 (some 63) false, true⟩], tlOut := [(4, 7)] }
theorem witness_AnswersDelivered_atomic : let pk : Packet := { out8 6 (idStore 3 0) with data := [0, 0, 0, 0x80] }
    Sole sAtr pk (out8 5 (idStore 3 0)) 0 0 ∧ pk.id = idStore 3 0 ∧ (owner sAtr pk).q.lq = [] ∧
      (owner sAtr pk).q.stq = [⟨3, 0, 0, 0, .atom 7 0 0 0x30 1 0 (some 63) false, true⟩] ∧ pk.aux = 0 ∧ 0 < 63 := by unfold Sole; decide +kernel
theorem test_atomr_lands : (match exec (.atomresp { out8 6 (idStore 3 0) with data := [0, 0, 0, 0x80] }) sAtr with
    | .next t => (t.ctxAt ⟨15, 9, 19⟩ 0).regs.s == [(63, 0xFFFFFFFF80000000)] && (t.ctxAt ⟨15, 9, 19⟩ 0).q.tlOut == [] | _ => false) = true := by decide +kernel
theorem witness_AnswersDelivered_gather : (sP.ctx.q.allGathers.any fun e => e.num == 1 && e.whole) = true := by decide +kernel

/-- The seventh and the eighth refusal; requests that back off until cycle 64; a request that no answer comes to. -/
theorem witness_Retries : (Sole (sLd 6 4096) (out8 9 (idLoad 3)) (out8 1 (idLoad 3)) 6 4096 ∧ 6 < 7) ∧
    (Sole (sLd 7 8192) (out8 9 (idLoad 3)) (out8 1 (idLoad 3)) 7 8192 ∧ (out8 1 (idLoad 3)).typ = 1 ∧ (owner (sLd 7 8192) (out8 9 (idLoad 3))).q.lq = [] ∧
      (owner (sLd 7 8192) (out8 9 (idLoad 3))).q.dropped = []) ∧
    ((∃ e ∈ ((sLd 1 64).source (sLd 1 64).focus 19 15 7).sent, 0 < e.2.2) ∧ (sLd 1 64).todo = [] ∧ (sLd 1 64).die.unreachable (sLd 1 64).focus.pkg 15 7 = false ∧
      ∀ e ∈ ((sLd 1 64).source (sLd 1 64).focus 19 15 7).sent, ((sLd 1 64).route e.1.spkg e.1.sstn (paPkg e.1.dest) (paStn e.1.dest)).isSome = true) ∧
    ((out8 1 (idLoad 3)).born + 2 ^ 20 ≤ ((sLd 0 0).coreAt (packetSource (out8 1 (idLoad 3)))).cycle ∧ ∀ r ∈ (sLd 0 0).die.src, r.1 / 256 = 19 → r.2.redir = []) ∧
    (((sLd 0 0).source (sLd 0 0).focus 19 15 7).sent = [(out8 1 (idLoad 3), 0, 0)] ∧ (out8 1 (idLoad 3)).id = idLoad 3 ∧ (owner (sLd 0 0) (out8 1 (idLoad 3))).q.lq = [] ∧ (owner (sLd 0 0) (out8 1 (idLoad 3))).q.dropped = []) := by
  unfold Sole; decide +kernel
/-- The eighth refusal is 0x0401; the seventh backs off for 64 × 64 cycles. -/
theorem test_nack : (match exec (.nack (out8 9 (idLoad 3))) (sLd 7 8192) with | .next t => (t.ctxAt ⟨15, 9, 19⟩ 0).q.ldq.map (·.err) == [0x0401] | _ => false) = true ∧
    (match exec (.nack (out8 9 (idLoad 3))) (sLd 6 2048) with | .next t => ((t.source ⟨15, 9, 0⟩ 19 15 7).sent.map (·.2)) == [(7, 4096)] | _ => false) = true := by decide +kernel
/-- A REDIRECT to page 5 of die 8 of package 14, a page of kind 2, after `n` forwards, where the translation asks for kind `k`. -/
def pkRe : Packet := { out8 8 (idLoad 3) with data := leBytes 8 (mkPa 14 8 0x50002) }
def reQ (n k : Nat) : Packet := { out8 1 (idLoad 3) with fwd := n, via := (0, 0, k * 2 ^ 9) }
def sRe (n k : Nat) : State := sSrc (reQ n k) 0 0 fun q => q
theorem witness_Redirect : (∀ k ∈ [0, 2], Sole (sRe 3 k) pkRe (reQ 3 k) 0 0 ∧
      (bits (reQ 3 k).via.2.2 10 9 = 0 ∨ bits (reQ 3 k).via.2.2 10 9 = bits (leNat pkRe.data) 1 0) ∧ (reQ 3 k).fwd < 4) ∧
    (let new := bits (leNat pkRe.data) 55 16 * 2 ^ 16 + pkRe.dest % 2 ^ 16
    let l := packetSource pkRe
    new = mkPa 14 8 0x5FFF8 ∧ paStn new < 10 ∧ (paPkg new, paStn new) ≠ (paPkg pkRe.dest, paStn pkRe.dest) ∧ ((sRe 3 0).dieAt l.pkg l.die).unreachable l.pkg (paPkg new) (paStn new) = false ∧
      ((sRe 3 0).route l.pkg l.die (paPkg new) (paStn new)).isSome = true ∧ ((sRe 3 0).source l pkRe.agent (paPkg new) (paStn new)).sent = []) ∧
    (Sole (sRe 4 0) pkRe (reQ 4 0) 0 0 ∧ 4 ≤ (reQ 4 0).fwd ∧ (owner (sRe 4 0) pkRe).q.lq = [] ∧ (owner (sRe 4 0) pkRe).q.dropped = []) ∧
    Sole (sRe 0 1) pkRe (reQ 0 1) 0 0 ∧ bits (reQ 0 1).via.2.2 10 9 ≠ 0 ∧ bits (reQ 0 1).via.2.2 10 9 ≠ bits (leNat pkRe.data) 1 0 := by
  unfold Sole; exact ⟨by decide +kernel, by decide +kernel, by decide +kernel⟩

/-! ### The host -/

/-- The host port of package 2 is on die 9, READY, whose record says so; its window stands at die 7 of package 15. -/
def sHost : State := { State.reset with
  dies := [(dieKey 2 9, { Die.reset with boot := .ready, deploy := [1, 0, 2, 1, 0, 0], regs := { DevRegs.reset with winbase := mkPa 15 7 0 } })]
  host := { HostSide.reset with posted := (0, pk8 0 []) :: [3, 4, 5].map fun n => (n, { pk8 n [1] with spkg := 2 }) } }
/-- The same with a write of the host out. -/
def sHostOut : State := sHost.modDieAt 2 9 fun d => { d with src := [(srcKey 43 15 7, ⟨1, [({ pk8 3 [1] with agent := 43 }, 0, 0)], [], []⟩)] }
/-- The last line of the window's 64 GiB, and the first byte behind it; a register of station 9 read whole, and one of no station. -/
theorem witness_HostAccesses : (∀ s ∈ [sHost, sHostOut], s.hostDie = some (2, 9) ∧ (s.dieAt 2 9).boot = .ready ∧ (s.dieAt 2 9).bypassed = false ∧ s.host.queue = [] ∧
      s.hostAddr 2 (2 ^ 36 - 128) 128 = some (mkPa 15 7 (2 ^ 36 - 128)) ∧
      (let pa := mkPa 15 7 (2 ^ 36 - 128)
      pa % 128 + 128 ≤ 128 ∧ paStn pa < 10 ∧ (s.dieAt 2 9).unreachable 2 (paPkg pa) (paStn pa) = false ∧ (s.route 2 9 (paPkg pa) (paStn pa)).isSome = true)) ∧
    (sHost.dieAt 2 9).src = [] ∧ sHostOut.hostWriting ⟨2, 9, 0⟩ = true ∧ sHost.hostAddr 2 (2 ^ 36 - 7) 8 = none ∧ sHost.hostAddr 0 0x90010 8 = some (mkPa 2 9 0xFF0000000010) ∧
    sHost.hostAddr 0 0xA0000 8 = none ∧ sHost.hostWriting sHost.hostLoc = false ∧ sHostOut.hostAddr 0 0xA0000 8 = none ∧
    sHostOut.hostWriting sHostOut.hostLoc = true := by decide +kernel
theorem witness_HostCompletion : (∀ n ∈ [3, 4, 5], let pk : Packet := { pk8 n [1] with spkg := 2 }
      sHost.host.posted.find? (fun e => e.1 == n) = some (n, pk) ∧ WayBack sHost pk) ∧
    sHost.host.posted.find? (fun e => e.1 == 0) = some (0, pk8 0 []) ∧ ∀ e ∈ sHost.host.posted, e.1 ≠ 6 := by unfold WayBack; decide +kernel
/-- A die that is READY takes the writes; one that has not booted takes none. -/
theorem witness_DeviceRegisters : (let s : State := { sHome with focus := ⟨15, 7, 0⟩ }
      s.focus.pkg < 16 ∧ s.focus.die ≤ 7 ∧ ∀ off ∈ [0x140, 0x158, 0x100, 0x130, 0x1F8], s.takesReg s.focus.pkg s.focus.die off = true) ∧
    State.reset.takesReg 0 0 0x140 = false := by decide +kernel

/-! ### Units of a die -/

/-- Page tables at 0x2000 to 0x8000: page 0x3FF of root 0x2000 is page 1 of die 0, readable. A walk of it is under way; two invalidations wait. Generator 1 has slot 3, whose key is 5. -/
def sUnit : State := ({ State.reset with dies := [(0, { Die.reset with
  boot := .ready, keys := [(3, 5)], walks := [(0x2000, 0x3FF)], tlb := [⟨0x2000, 1, 16, 0x20013, none⟩]
  regs := { DevRegs.reset with hbmtop := 32, tlbq := [0x2000, 1], fwdctl := 0x40000001 }
  store := { Store.reset with mem := [(0x2000, 1), (0x2001, 0x40), (0x4000, 1), (0x4001, 0x60), (0x6000, 1), (0x6001, 0x80), (0x9FF8, 0x13), (0x9FFA, 1)] } })] } : State).modRegs
  fun r => { r with gen := [(1, ⟨2 ^ 128 - 1, 3, []⟩)] }
theorem witness_Translation : sUnit.die.regs.tlbq = [0x2000, 1] ∧ (sUnit.die.tlbwait.any (sUnit.translated sUnit.focus.pkg sUnit.focus.die).contains) = false ∧
    sUnit.die.walks = [(0x2000, 0x3FF0000 / 2 ^ 16)] ∧ sUnit.walk sUnit.focus 0x2000 0x3FF0000 = .ok (16, 0x10013) ∧ 16 ≤ 16 ∧ sUnit.die.tlb.length < 16384 ∧
    (∀ c < 20, ∀ x < 4, (sUnit.ctxAt ⟨sUnit.focus.pkg, sUnit.focus.die, c⟩ x).live = false) := by decide +kernel
/-- The page above is not in the table: its walk fails, with code 0x0301. -/
theorem witness_Translation_fails : (∃ e, sUnit.walk sUnit.focus 0x2000 0x4000000 = .error e ∧ e.1 ≠ 0) ∧
    (sUnit.modDie fun d => { d with walks := [(0x2000, 0x4000000 / 2 ^ 16)] }).die.walks = [(0x2000, 0x400)] := by
  refine ⟨?_, by decide +kernel⟩
  have h : (match sUnit.walk sUnit.focus 0x2000 0x4000000 with | .error e => e.1 != 0 | .ok _ => false) = true := by decide +kernel
  generalize sUnit.walk sUnit.focus 0x2000 0x4000000 = r at h
  cases r with
  | error e => exact ⟨e, rfl, by simpa using h⟩
  | ok x => cases h
/-- Context 3 of core 19 of the die has one load, of the last word of a page, whose walk is under way. -/
def sWait (va : Nat) : State := (sUnit.modDie fun d => { d with walks := [(0x2000, va / 2 ^ 16)] }).modCtxAt ⟨0, 0, 19⟩ 3 fun c => { c with
  bind := some hb, q := { c.q with lq := [⟨3, 0, .load (va + 0xFFF8) 8 false, false⟩], ldq := [⟨3, 0, 8, false, [], 0, 0⟩] } }
theorem witness_Translation_waits : (∀ va ∈ [0x3FF0000, 0x4000000], Waits (sWait va) ⟨0, 0, 19⟩ 3 0x2000 va (va + 0xFFF8) 3 0 8 ∧ (sWait va).die.walks = [(0x2000, va / 2 ^ 16)]) ∧
    (match (sWait 0x4000000).walk (sWait 0x4000000).focus 0x2000 0x4000000 with | .error e => e.1 != 0 | .ok _ => false) = true ∧
    (sWait 0x3FF0000).walk (sWait 0x3FF0000).focus 0x2000 0x3FF0000 = .ok (16, 0x10013) ∧ (0x10013).testBit 0 = true ∧ (0x10013).testBit 1 = true ∧
    (let s := sWait 0x3FF0000
    let pa := leafPa 16 0x10013 0x3FFFFF8
    pa = 0x1FFF8 ∧ s.die.tlb.length < 16384 ∧ paStn pa < 10 ∧ s.die.unreachable 0 (paPkg pa) (paStn pa) = false ∧ (s.route 0 0 (paPkg pa) (paStn pa)).isSome = true ∧
      (s.source ⟨0, 0, 19⟩ 19 (paPkg pa) (paStn pa)).sent = [] ∧ s.canSend ⟨0, 0, 19⟩ 19 pa = true) := by unfold Waits; decide +kernel
/-- Rows of page 5: home here with a free place in the table; with a request of the page still queued; and held already. -/
def sRow (w : Nat) (q : Tab (List Packet)) : State := sUnit.modDie fun d => { d with
  regs := { d.regs with fwdctl := 0x10001 }, atomq := q, store := { d.store with mem := d.store.mem ++ (if w = 0 then [] else [(0x10050, BitVec.ofNat 8 w), (0x10052, 5)]) } }
theorem witness_RowRepair : (State.reset.rowHold 0 = none) ∧ (sRow 0 []).rowHold 0x50000 = some (0x10050, false) ∧ (sRow 0 []).pageBusy 5 = false ∧
    (sRow 3 []).rowHold 0x5FFFF = some (0x10050, true) ∧ (sRow 0 [(0, [{ blankPacket with typ := 3, size := 8, dest := 0x50000 }])]).pageBusy 5 = true := by decide +kernel
theorem witness_RowRepair_wf : (sRow 3 []).memoriesWf := ⟨by decide +kernel, by decide +kernel, by decide +kernel⟩
theorem witness_PageMove : (sUnit.unitRoute sUnit.focus (7 * 2 ^ 16) = 0 ∧ sUnit.recordAt 5 = some 0x40000050 ∧ sUnit.pageBusy 5 = false ∧ sUnit.regionKind (7 * 2 ^ 16) = some (1 - 1) ∧
    sUnit.regionKind (mkPa 3 8 0x70000) = some (2 - 1)) ∧
    ∀ b < 16, ∀ k < 65536, 0x40000050 + b ≠ mkPa 0 0 (5 * 2 ^ 16) + k ∧ 0x40000050 + b ≠ 7 * 2 ^ 16 + k :=
  ⟨by decide +kernel, by intro b _ k _; simp only [mkPa]; omega⟩
theorem witness_PageMove_wf : sUnit.memoriesWf := ⟨by decide +kernel, by decide +kernel, by decide +kernel⟩
theorem witness_Units : (7 < 8 ∧ 8 ≤ ({ State.reset with focus := ⟨0, 8, 0⟩ } : State).focus.die) ∧ (0 < 1 ∧ 1 ≤ 1) ∧
    sUnit.die.key (sUnit.gen 1).slot = some 5 ∧ (sUnit.gen 1).missing = some (2 ^ 128 - 1) := by decide +kernel

/-- An SQCUR of 0 tokens about a descriptor of zeros, in a page that the TLB holds, for s63. -/
def uSeq : UnitReq := ⟨⟨0, 0, 3⟩, 1, 0x2000, 4, .seqop 4 0 63 0x10100 0 0⟩
def sSeq : State := (sUnit.modDie fun d => { d with seqq := [uSeq], tlb := [⟨0x2000, 1, 16, 0x20187, none⟩] }).modCtxAt ⟨0, 0, 3⟩ 1 fun c => { c with
  pipe := { c.pipe with wait := [⟨4, 0, 0, uSeq.eff⟩] } }
theorem witness_SequenceOperations : ∃ s' w, sSeq.die.seqOut = none ∧ s'.hostOut (sSeq.host.nextTag, s'.host.nextTag) = false ∧ sSeq.die.seqq = [uSeq] ∧ uSeq.eff = .seqop 4 0 63 0x10100 0 0 ∧ sSeq.seqRun uSeq 4 0 0x10100 0 0 = (s', .done 0) ∧ s'.focus = sSeq.focus ∧
    (s'.ctxAt uSeq.l uSeq.c).pipe.waits 4 = some w ∧ w.ser = uSeq.ser ∧ 0 < 63 := by
  have h : (sSeq.seqRun uSeq 4 0 0x10100 0 0).2 = .done 0 := by
    have g : (match (sSeq.seqRun uSeq 4 0 0x10100 0 0).2 with | .done v => v == 0 | _ => false) = true := by decide +kernel
    generalize (sSeq.seqRun uSeq 4 0 0x10100 0 0).2 = r at g ⊢
    cases r with
    | done v => rw [eq_of_beq g]
    | _ => cases g
  exact ⟨(sSeq.seqRun uSeq 4 0 0x10100 0 0).1, ⟨4, 0, 0, uSeq.eff⟩, by decide +kernel, by decide +kernel, by decide +kernel, rfl, by rw [← h], by decide +kernel, by decide +kernel, rfl, by decide⟩
/-- A descriptor with 255 of 256 tokens, 250 in the prefix, of epoch 7. -/
def qSeq : SeqDesc := { parseDesc [] with g := 255, p := 250, epoch := 7, pgtok := 1, toks := 0x8000 }
theorem witness_SequenceOperations_plan : (¬ ((0x6000000FF : Word).toNat / 2 ^ 32 = qSeq.epoch ∧ (0x6000000FF : Word).toNat % 2 ^ 30 = qSeq.g % 2 ^ 30)) ∧ qSeq.p + (5 : Word).toNat ≤ qSeq.g ∧
    ((0x7000000FF : Word).toNat / 2 ^ 32 = qSeq.epoch ∧ (0x7000000FF : Word).toNat % 2 ^ 30 = qSeq.g % 2 ^ 30 ∧ qSeq.g < 256 * qSeq.pgtok) := by decide +kernel

end Sys2Proof.Tests
end

