-- ==== Sys2Proof/Tests/WitnessSystem.lean ====
section
/-! SUPPORT. Tests: states that meet the hypotheses of the statements about firmware, service, regions, and the events of cores and contexts. -/

open Sys2Proof Sys2Proof.Machine Sys2Proof.Claims

namespace Sys2Proof.Tests

set_option Elab.async false

/-! ### Mailbox, boot and reset -/

/-- Mailbox command `cmd` at die 7 of package 15, about the block at 1 MiB, which names slot 15; slots 15 and 0 are full. -/
def sMail (cmd : Nat) : State := { State.reset with focus := ⟨15, 7, 0⟩, dies := [(dieKey 15 7, { dHome with
  keys := [(15, 1), (0, 2)]
  regs := { dHome.regs with mbxbusy := true, mbxreq := BitVec.ofNat 64 (cmd * 2 ^ 60 + mkPa 15 7 0x100000) }
  store := { Store.reset with mem := [(0x100010, 15)] } })] }
theorem witness_MailboxCommands : ∀ cmd ∈ [1, 2, 3],
    let b := bytesAt (sMail cmd) (wbits (sMail cmd).die.regs.mbxreq 55 10 * 1024) 1024
    Mailing (sMail cmd) cmd b ∧ paOff (wbits (sMail cmd).die.regs.mbxreq 55 10 * 1024) = 0x100000 ∧ (nth 0 b 16).toNat = 15 ∧ (sMail cmd).die.imgHash.length ≤ 48 := by
  unfold Mailing Clean; decide +kernel
theorem witness_MailboxCommands_calm : ∀ cmd ∈ [1, 2, 3], Calm (sMail cmd) := by unfold Calm; decide +kernel
theorem witness_MailboxCommands_wf : ∀ cmd ∈ [1, 2, 3], (sMail cmd).memoriesWf := by unfold State.memoriesWf; decide +kernel

/-- Die 0 waits for an image of the host port on die 8, which its own record and that of die 8 name, with and without a length in BOOTLEN. -/
def sBoot (len : Nat) : State := { State.reset with dies := [(0, { Die.reset with boot := .awaitImage, deploy := [1, 0, 0, 0, 0, 0] }),
  (dieKey 0 8, { Die.reset with boot := .awaitImage, deploy := [1, 0, 0, 0, 0, 0], regs := { DevRegs.reset with bootlen := len } })] }
theorem witness_BootAndReset : (9 < 10 ∧ (State.reset.dieAt State.reset.focus.pkg 9).boot = .off) ∧
    (∀ len ∈ [0, 1, 2 ^ 24 + 1], (sBoot len).die.boot = .awaitImage ∧ (sBoot len).die.hostPort = some (0, 8) ∧ ((sBoot len).dieAt 0 8).boot = .awaitImage ∧ ((sBoot len).dieAt 0 8).boot ≠ .failed ∧
      (sBoot len).isHostDie 0 8 = true ∧ ((sBoot len).dieAt 0 8).bypassed = false ∧ ((sBoot len).route (sBoot len).focus.pkg (sBoot len).focus.die 0 8).isSome = true ∧
      (sBoot len).imageLen = len) ∧ State.reset.focus.pkg < 16 := by decide +kernel

/-! ### Service -/

/-- Service command `w` in progress at die 7 of package 15. -/
def sServe (w : Word) (f : Die → Die) : State := { State.reset with
  focus := ⟨15, 7, 0⟩, dies := [(dieKey 15 7, f { dHome with regs := { dHome.regs with svcbusy := true, svccmd := w } })]
  flash := [(15, { Flash.reset with device := some ⟨[], [0, 0, 0, 0, 0, 0, 0, 2 ^ 19, 0], [], 0, 0⟩ })] }
/-- RETIRE_CORE and RESTORE_CORE of core 19. -/
theorem witness_ServiceCommands_cores : ((sServe 0x1000000000000013 id).serving 0x1000000000000013 1 = true ∧ wbits 0x1000000000000013 7 0 < 20 ∧
      (sServe 0x1000000000000013 id).focus.die < 8 ∧ wbits 0x1000000000000013 55 8 = 0 ∧ wbits 0x1000000000000013 7 0 = 19) ∧
    ((sServe 0x1000000000000013 id).die.retiring = some 19 ∧ 19 < 20 ∧ ∀ x < 4, ((sServe 0x1000000000000013 id).ctxAt ⟨15, 7, 19⟩ x).bind = none) ∧
    (let s := sServe 0x2000000000000013 fun d => { d with regs := { d.regs with retired := 2 ^ 19 } }
    s.serving 0x2000000000000013 2 = true ∧ wbits 0x2000000000000013 7 0 < 20 ∧ s.focus.die < 8 ∧ wbits 0x2000000000000013 55 8 = 0 ∧
      (enabledMask (s.flashOf s.focus.pkg) s.focus.die).testBit (wbits 0x2000000000000013 7 0) = true ∧ s.die.regs.retired.testBit (wbits 0x2000000000000013 7 0) = true) := by
  decide +kernel
/-- The commands without operands, a die drained, one that four heartbeats have missed, and an image at offset 0 of the die itself. -/
theorem witness_ServiceCommands_dies : (∀ n ∈ [3, 4, 5, 7, 8], (sServe (BitVec.ofNat 64 (n * 2 ^ 60)) id).serving (BitVec.ofNat 64 (n * 2 ^ 60)) n = true ∧
      wbits (BitVec.ofNat 64 (n * 2 ^ 60)) 55 0 = 0) ∧
    (let s := sServe 0x3000000000000000 fun d => { d with draining := true }
    s.die.draining = true ∧ s.die.regs.drained = false ∧ s.dieFree = true ∧ s.serving s.die.regs.svccmd 3 = true) ∧
    (let s := sServe 0 fun d => { d with missed := 4 }
    s.die.missed = 4 ∧ s.die.bypassed = false ∧ s.regions = [] ∧ s.die.seqq = [] ∧ s.die.seqOut = none ∧ s.focus.die < 10) ∧
    (let w : Word := BitVec.ofNat 64 (6 * 2 ^ 60 + mkPa 15 7 0)
    let s := sServe w fun d => { d with regs := { d.regs with drained := true } }
    s.serving w 6 = true ∧ s.die.restarting = false ∧ wbits w 7 0 = 0 ∧ s.die.regs.drained = true ∧ paPkg (wbits w 55 8 * 256) = s.focus.pkg ∧ s.regionKind (wbits w 55 8 * 256) = some 0) ∧
    (let w : Word := BitVec.ofNat 64 (6 * 2 ^ 60)
    let s := sServe w fun d => { d with restarting := true }
    s.serving w 6 = true ∧ s.die.restarting = true) ∧ (sServe 0 id).die.bypassed = false ∧
    (sServe 0 id).focus.die ≤ 7 ∧ (sServe 0 id).focus.pkg < 16 ∧ (sServe 0 id).die.hbmTop + 0x20000000 ≤ 2 ^ 48 := by decide +kernel
/-- UPDATE_FIRMWARE is in progress at a drained die whose memory is 16 MiB; an image at offset 0 can be read whatever its length, one beyond the memory cannot. -/
def sFirm (w : Word) : State := sServe w fun d => { d with regs := { d.regs with drained := true, hbmtop := 256 } }
/-- The command word for an image at a physical address. -/
def wFirm (pa : Nat) : Word := BitVec.ofNat 64 (6 * 2 ^ 60 + pa)
theorem firm_reads (n : Nat) (hn : n ≤ 2 ^ 24) :
    ∃ b, (sFirm (wFirm (mkPa 15 7 0))).unitRead ⟨15, 7, 0⟩ 42 (mkPa 15 7 0) n = (sFirm (wFirm (mkPa 15 7 0)), .ok b) := by
  generalize hs : sFirm (wFirm (mkPa 15 7 0)) = s
  generalize hp : mkPa 15 7 0 = a
  have h1 : s.unitReach ⟨15, 7, 0⟩ 42 a n = (s, .ok a) := by subst hs hp; rfl
  have hk : s.regionKind a = some 0 := by subst hs hp; decide +kernel
  have hd : s.dieAt (paPkg a) (paStn a) = s.dieAt 15 7 := by subst hp; rfl
  have ht : (s.dieAt 15 7).hbmTop = 2 ^ 24 := by subst hs; decide +kernel
  have ho : paOff a = 0 := by subst hp; decide +kernel
  have hn' : n ≤ 16777216 := hn
  have hm : (s.dieAt 15 7).regs.mw = [] ∧ (s.dieAt 15 7).store.soft = [] ∧ (s.dieAt 15 7).store.poison = [] ∧ (s.dieAt 15 7).store.dead = [] ∧
      (s.dieAt 15 7).store.bad = [] ∧ (s.dieAt 15 7).store.plain = [] := by
    subst hs; decide +kernel
  obtain ⟨m1, m2, m3, m4, m5, m6⟩ := hm
  have h3 : ∃ b, s.memRead (unitPacket ⟨15, 7, 0⟩ 42 1 a n) n = .ok b := by
    simp [State.memRead, State.placeAux, unitPacket, blankPacket, hk, hd, ht, ho, hn', State.isHbm, Store.readAux, Store.fails, Store.poisoned, Store.encDiffers, m3, m4, m5, m6]
  obtain ⟨b, h3⟩ := h3
  have h4 : ∀ k, s.watchOne (unitPacket ⟨15, 7, 0⟩ 42 1 a n) true n b k = (s, none) := by
    intro k
    have h : (MWatch.reset).hit true a n = none := by simp [MWatch.hit, MWatch.reset]
    simp [State.watchOne, unitPacket, blankPacket, hd, m1, show tget MWatch.reset [] k = MWatch.reset from rfl, h]
  refine ⟨b, ?_⟩
  have h5 : s.homeRead (unitPacket ⟨15, 7, 0⟩ 42 1 a n) n = .ok (s, b) := by
    have h6 : s.isReg (unitPacket ⟨15, 7, 0⟩ 42 1 a n).dest = false := by simp [State.isReg, unitPacket, hk]
    have h7 : s.countSoft (unitPacket ⟨15, 7, 0⟩ 42 1 a n) n = s := by simp [State.countSoft, unitPacket, blankPacket, hd, m2]
    have h8 : s.watchAll (unitPacket ⟨15, 7, 0⟩ 42 1 a n) true n b = s := List.foldl_fixed' (fun k => by simp only [h4]) _
    simp [State.homeRead, h6, h7, h3, h8]
  simp [State.unitRead, h1, h5]
theorem firm_image : ∃ b, (sFirm (wFirm (mkPa 15 7 0))).readImage (mkPa 15 7 0) = (sFirm (wFirm (mkPa 15 7 0)), some b) := by
  obtain ⟨h, e⟩ := firm_reads 64 (by decide)
  obtain ⟨b, e2⟩ := firm_reads (max 1 (min (Config.imageLength h) (2 ^ 24))) (by omega)
  exact ⟨b, by simp only [State.readImage, show (sFirm (wFirm (mkPa 15 7 0))).focus = ⟨15, 7, 0⟩ from rfl, e, e2]⟩
theorem witness_UpdateFirmware : ∃ b, let w := wFirm (mkPa 15 7 0)
    let s := sFirm w
    let pa := wbits w 55 8 * 256
    s.serving w 6 = true ∧ s.die.restarting = false ∧ wbits w 7 0 = 0 ∧ s.die.regs.drained = true ∧ paPkg pa = s.focus.pkg ∧ s.regionKind pa = some 0 ∧ s.readImage pa = (s, some b) := by
  obtain ⟨b, e⟩ := firm_image
  exact ⟨b, by decide +kernel, by decide +kernel, by decide +kernel, by decide +kernel, by decide +kernel, by decide +kernel, e⟩
theorem witness_UpdateFirmware_unreadable : let w := wFirm (mkPa 15 7 (2 ^ 30))
    let s := sFirm w
    let pa := wbits w 55 8 * 256
    s.serving w 6 = true ∧ s.die.restarting = false ∧ wbits w 7 0 = 0 ∧ s.die.regs.drained = true ∧ paPkg pa = s.focus.pkg ∧ s.regionKind pa = some 0 ∧
      (s.readImage pa).2 = none ∧ (s.readImage pa).1.focus = s.focus := by decide +kernel
theorem witness_ServiceCommands_wf : ∀ n ∈ [7, 8], (sServe (BitVec.ofNat 64 (n * 2 ^ 60)) id).memoriesWf := by unfold State.memoriesWf; decide +kernel

/-! ### Regions -/

/-- A leaf of one task on one core, with a save pool at 1 MiB. -/
def rg : Region := { State.reset.parseBlock 0x4000 [] none 0 0 0x4000 with
  kind := 2, state := 1, policy := 1, bcores := 1, ctxpc := 1, ptroot := 0x2000, segptr := 0x10000, argptr := 7, ntask := 5, saveptr := 0x100000 }
/-- Die 0 is READY with that leaf; core 19 is free; the bytes of page 2 begin with a segment of one word. -/
def sReg (f : Region → Region) : State := { State.reset with
  dies := [(0, { Die.reset with
    boot := .ready, roots := [0x4000], regs := { DevRegs.reset with hbmtop := 32 }, tlb := [⟨0x2000, 1, 16, 0x2019F, none⟩]
    store := { Store.reset with mem := [(0x20000, 0x45), (0x20001, 0x43), (0x20002, 0x54), (0x20003, 0x33), (0x20005, 3), (0x20018, 4), (0x20040, 0x87), (0x20041, 0x51), (0x20042, 0x10), (0x20043, 0x80)] } })]
  cores := [(19, { Core.reset with on := true })]
  regions := [f rg] }
/-- The block of a leaf: KIND 2, DIEMASK 1, PTROOT 0x2000, SEGPTR 0x10000. -/
def leafBlock : List Byte := (List.range 256).map fun i => if i = 24 then 2 else if i = 30 then 1 else if i = 57 then 0x20 else if i = 66 then 1 else if i = 80 then 1 else 0
/-- Die 0 with that block at 0x4000, and 20 cores. -/
def sLaunch : State :=
  let s := sReg id
  { (s.modDie fun d => { d with roots := [], store := { Store.reset with mem := Memory.write [] 0x4000 leafBlock } }) with regions := [] }
/-- A pair whose second part succeeded. -/
theorem ok_of {α β : Type} {r : α × Except Nat β} (h : (match r.2 with | .ok _ => true | .error _ => false) = true) : ∃ b, r = (r.1, .ok b) := by
  obtain ⟨a, x⟩ := r
  cases x with
  | ok b => exact ⟨b, rfl⟩
  | error c => cases h
theorem witness_Launch : ∃ u b, sLaunch.die.boot = .ready ∧ State.reset.die.boot ≠ .ready ∧ sLaunch.die.roots = [] ∧ sLaunch.unitRead ⟨0, 0, 0⟩ 44 0x4000 256 = (u, .ok b) ∧ wbits 0x4000 55 8 * 256 = 0x4000 ∧
    u.blockOk b (u.parseBlock 0x4000 b none 0 0 0x4000 u.nextTree) none 0 = true ∧ fieldOf b 8 8 = 0 := by
  refine ⟨(sLaunch.unitRead ⟨0, 0, 0⟩ 44 0x4000 256).1, Memory.read sLaunch.die.store.mem 0x4000 256, by decide +kernel, by decide +kernel, by decide +kernel, ?_, by decide +kernel, by decide +kernel, by decide +kernel⟩
  obtain ⟨b, h⟩ := ok_of (r := sLaunch.unitRead ⟨0, 0, 0⟩ 44 0x4000 256) (by decide +kernel)
  have e : (match (sLaunch.unitRead ⟨0, 0, 0⟩ 44 0x4000 256).2 with | .ok b => b == Memory.read sLaunch.die.store.mem 0x4000 256 | .error _ => false) = true := by decide +kernel
  rw [h] at e ⊢
  rw [eq_of_beq e]
theorem witness_Suspend : ∀ st ∈ [1, 2], let s := sReg fun r => { r with state := st }
    let r := { rg with state := st }
    s.region? (wbits 0x4000 55 8 * 256) = some r ∧ r.launch = dieKey s.focus.pkg s.focus.die ∧ s.below r.blk = [r] ∧ r.saveptr ≠ 0 ∧ r.suspending = false := by decide +kernel
/-- A suspended leaf whose block stands in memory with DIEMASK 1. -/
def sSusp : State := { sLaunch with regions := [{ rg with state := 6 }] }
theorem witness_Resume : rg.parent ≠ rg.blk ∧ ∃ u b, sSusp.region? (wbits 0x4000 55 8 * 256) = some { rg with state := 6 } ∧ rg.launch = dieKey sSusp.focus.pkg sSusp.focus.die ∧
    sSusp.below rg.blk = [{ rg with state := 6 }] ∧ sSusp.unitRead ({ rg with state := 6 } : Region).homeLoc 44 rg.blk 256 = (u, .ok b) ∧ fieldOf b 30 1 ≠ 0 := by
  refine ⟨by decide +kernel, (sSusp.unitRead ({ rg with state := 6 } : Region).homeLoc 44 rg.blk 256).1, Memory.read sSusp.die.store.mem 0x4000 256, by decide +kernel, by decide +kernel, by decide +kernel, ?_, by decide +kernel⟩
  obtain ⟨b, h⟩ := ok_of (r := sSusp.unitRead ({ rg with state := 6 } : Region).homeLoc 44 rg.blk 256) (by decide +kernel)
  have e : (match (sSusp.unitRead ({ rg with state := 6 } : Region).homeLoc 44 rg.blk 256).2 with | .ok b => b == Memory.read sSusp.die.store.mem 0x4000 256 | .error _ => false) = true := by
    decide +kernel
  rw [h] at e ⊢
  rw [eq_of_beq e]

theorem witness_BindCoreGroup : let s := sReg id
    s.rerunFails 0 0 = none ∧ s.rerunDue 0 0 = none ∧ s.binds 0 0 = true ∧ s.choose 0 0 ((s.seekers 0 0).filter (s.placeable 0)) = some rg ∧ rg.kind = 2 ∧ s.region? rg.blk = some rg ∧
      (s.offers rg 0).head? = some ⟨0, 0, 19⟩ ∧ ∀ c < rg.ctxpc, ∀ k ∈ (s.ctxAt ⟨0, 0, 19⟩ c).q.cmds, k.kind ≠ 4 := by decide +kernel
/-- A binding of the leaf, as placed; a DEAL to s62. -/
def bd : Bind := rg.bindOf 0
def uDeal : UnitReq := ⟨⟨0, 0, 19⟩, 0, 0x2000, 4, .deal 62⟩
/-- The leaf's group runs on core 19, its third task dealt. -/
def rRun : Region := { rg with state := 2, next := 3, groups := [Group.new ⟨0, 0, 19⟩ 0 1] }
def sRun (f : Ctx → Ctx) : State := ((sReg fun _ => rRun).modCtxAt ⟨0, 0, 19⟩ 0 fun c => f { c with bind := some bd })
theorem witness_Deal : let s := (sRun fun c => { c with pipe := { c.pipe with wait := [⟨4, 0, 0, .deal 62⟩] } }).modDie fun d => { d with dealq := [uDeal] }
    s.die.dealq = [uDeal] ∧ uDeal.eff = .deal 62 ∧ 0 < 62 ∧ (s.ctxAt uDeal.l uDeal.c).pipe.waits 1 = some ⟨4, 0, 0, .deal 62⟩ ∧ 4 = uDeal.ser ∧ (s.ctxAt uDeal.l uDeal.c).bind = some bd ∧
      bd.again = false ∧ s.region? bd.blk = some rRun ∧ rRun.shared = false ∧ rRun.kind = 2 ∧ rRun.groupAt uDeal.l = some (Group.new ⟨0, 0, 19⟩ 0 1) ∧
      rRun.waitsSaved = false ∧ rRun.state ≠ 5 ∧ rRun.next < rRun.ntask := by decide +kernel
/-- Two tasks are left for one group: the deal is of half of them, one, from task 3 on. -/
theorem test_deal : (match exec .dealerRequest ((sRun fun c => { c with pipe := { c.pipe with wait := [⟨4, 0, 0, .deal 62⟩] } }).modDie fun d => { d with dealq := [uDeal] }) with
    | .next t => (t.ctxAt ⟨0, 0, 19⟩ 0).regs.s == [(62, 3), (63, 1)] && t.regions.map (·.next) == [4] | _ => false) = true := by decide +kernel
theorem witness_Swap : ∀ k ∈ [1, 2], let s := { sRun (fun c => { c with bind := some { bd with swap := k } }) with focus := ⟨0, 0, 19⟩ }
    s.ctx.bind = some { bd with swap := k } ∧ s.ctx.swapReady = true := by decide +kernel
/-- A fetch that gives a segment. -/
theorem got_of {r : State × Fetched} (h : (match r.2 with | .got _ => true | _ => false) = true) : ∃ g, r = (r.1, .got g) := by
  obtain ⟨a, x⟩ := r
  cases x with
  | got g => exact ⟨g, rfl⟩
  | _ => cases h
/-- Every task of the leaf is dealt. -/
def sLast : State := { ({ sRun id with regions := [{ rRun with next := 5 }] } : State) with focus := ⟨0, 0, 19⟩ }
theorem witness_Preload : ∃ u g, sLast.region? 0x4000 = some { rRun with next := 5 } ∧ sLast.lastTask = true ∧ rRun.plgrp.testBit 7 = false ∧ sLast.ctx.preBank = none ∧
    sLast.fetchSeg sLast.focus sLast.sub rRun.ptroot rRun.segptr = (u, .got g) ∧ u.focus = sLast.focus ∧ u.sub = sLast.sub := by
  obtain ⟨g, h⟩ := got_of (r := sLast.fetchSeg sLast.focus sLast.sub rRun.ptroot rRun.segptr) (by decide +kernel)
  exact ⟨_, g, by decide +kernel, by decide +kernel, by decide +kernel, by decide +kernel, h, by decide +kernel, by decide +kernel⟩
theorem witness_Barrier : let s := sRun fun c => { c with pipe := { c.pipe with wait := [⟨0, 0, 0, .gbar⟩] } }
    s.region? 0x4000 = some rRun ∧ s.arrivals rRun = [(⟨0, 0, 19⟩, 0)] := by decide +kernel

theorem witness_RegionEnds : (let r := { rg with state := 2, ended := 5, next := 5 }
      (sReg fun _ => r).region? 0x4000 = some r ∧ (sReg fun _ => r).completeReady r = true ∧ r.cflag = 0) ∧
    (let r := { rRun with state := 5 }
    let s : State := { sRun (fun c => { c with stopping := 3 }) with regions := [r] }
    s.region? 0x4000 = some r ∧ s.notifyReady r = true ∧ r.cflag = 0 ∧ s.ctxsOf r = [(⟨0, 0, 19⟩, 0)] ∧ (∀ x ∈ s.owed, x.blk ≠ 0x4000) ∧
      ∀ g ∈ r.groups, ∀ c < g.size, (s.ctxAt g.l c).pre = none) ∧
    ∀ n ∈ [9, 10], let r := { rg with state := 2, bcycles := 10 }
      let s := (sReg fun _ => r).modCore fun k => { k with charge := [(0x4000, n)] }
      s.core.charge = [(0x4000, n)] ∧ s.region? 0x4000 = some r ∧ r.parent = 0 ∧ (n = 9 → r.used + n < r.bcycles) ∧ (n = 10 → r.bcycles ≤ r.used + n ∧ r.state ≠ 4) := by decide +kernel

/-- An inner region that is SUSPENDED and whose one child has failed. -/
theorem witness_RegionEnds_parent : let r := { rg with kind := 1, state := 6 }
    let s : State := { sReg (fun _ => r) with regions := [r, { rg with blk := 0x5000, parent := 0x4000, state := 5, flagged := true }] }
    s.region? 0x4000 = some r ∧ s.notifyReady r = true ∧ r.cflag = 0 ∧ r.state ≠ 5 ∧ (∀ x ∈ s.owed, x.blk ≠ 0x4000) ∧ r.groups = [] := by decide +kernel

/-- The leaf's one context has stopped, and the leaf is under suspension. -/
theorem witness_Save : let r := { rRun with suspending := true }
    let s : State := { sRun (fun c => { c with stopping := 3 }) with regions := [r] }
    s.regions.find? s.saveReady = some r ∧ s.region? r.blk = some r ∧ r.kind = 2 ∧ s.saveNext r = [(⟨0, 0, 19⟩, 0)] ∧ s.openCtxs r = [(⟨0, 0, 19⟩, 0)] ∧ r.resumeHeld = false ∧
      (s.coreAt ⟨0, 0, 19⟩).errs = [] ∧ (s.ctxAt ⟨0, 0, 19⟩ 0).mchk = none := by decide +kernel

end Sys2Proof.Tests
end

