-- ==== Sys2Proof/Tests/WitnessCores.lean ====
section
/-! SUPPORT. Tests: states that meet the hypotheses of the statements about restoring, checkpoints, issue, the array, copies, flags, and the invariant. -/

open Sys2Proof Sys2Proof.Machine Sys2Proof.Claims

namespace Sys2Proof.Tests

set_option Elab.async false

/-! ### Restoring, checkpoints, issue -/

/-- The leaf's context 0, saved in slot 0. -/
def sv : Saved := ⟨0, 0, 0, Group.new ⟨0, 0, 19⟩ 0 1, { Ctx.reset with bind := some bd }, 0, false⟩
def sSv : State := sReg fun r => { r with saved := [sv] }
theorem witness_Restore : ∃ u b, let r := { rg with saved := [sv] }
    sSv.region? 0x4000 = some r ∧ sSv.restorePlan r = some [(⟨0, 0, 19⟩, [sv])] ∧ sv.fresh = false ∧
      (placing sSv 0x4000 ⟨0, 0, 19⟩ sv).readSlot ⟨0, 0, 0⟩ (r.saveptr + sv.slot * slotSize r.savemask) (slotSections r.savemask) = (u, .ok b) := by
  obtain ⟨b, h⟩ := ok_of (r := (placing sSv 0x4000 ⟨0, 0, 19⟩ sv).readSlot ⟨0, 0, 0⟩ (rg.saveptr + sv.slot * slotSize rg.savemask) (slotSections rg.savemask)) (by decide +kernel)
  exact ⟨_, b, by decide +kernel, by decide +kernel, rfl, h⟩

/-- A checkpoint of bundle 0 from cycle 0, at the cycle from which it is past its horizon, with a withheld CBADV.W of handle 15. -/
def ck : Ckpt := { Ckpt.reset with rps := [(15, 3)] }
def sConf (n : Nat) : State := ((State.reset.modCore fun k => { k with cycle := n }).modPipe fun p => { p with cks := [ck], held := [⟨0, 0, .cbadv 15 256, false, 1⟩] }).modRegs fun r => { r with
  cb := [(15, { CBuf.reset with wp := 2 ^ 32 - 1, pendW := 256 })] }
theorem witness_Confirmation : (sConf 8).ctx.confirmDue (sConf 8).cyc = some ck ∧ (sConf 7).ctx.confirmDue (sConf 7).cyc = none ∧ (sConf 8).ctx.pipe.held = [⟨0, 0, .cbadv 15 256, false, 1⟩] ∧ 0 ≤ ck.ser ∧
    ((sConf 8).cb 15).eng = false ∧ (let s := (sConf 8).modPipe fun p => { p with held := [] }
    s.ctx.confirmDue s.cyc = some ck ∧ s.ctx.pipe.held = []) := by decide +kernel
theorem test_confirm : (match exec .checkpointConfirm (sConf 8) with
    | .next t => (t.cb 15).wp == 255 && (t.cb 15).pendW == 0 && t.ctx.pipe.held == [] && t.ctx.pipe.cks == [] | _ => false) = true := by decide +kernel
/-- A store of two bytes at the end of page 0xFFFFFFFFFF, which is page 0xFF of die 0; its translation is in the TLB and permits it. -/
def sStq : State := (State.reset.modCore fun k => { k with tlb := [⟨0, 2 ^ 40 - 1, 16, 0xFF0197, none⟩] }).modQ fun q => { q with stq := [⟨3, 0, 0, 0, .store (2 ^ 56 - 2) [1, 2] none, false⟩] }
theorem witness_StoreSend : ∃ e pa pte, sStq.storeReady = some e ∧ e.eff = .store (2 ^ 56 - 2) [1, 2] none ∧ Maps sStq e.root (2 ^ 56 - 2) 1 pa pte ∧
    Reaches sStq sStq.focus.core pa ∧ sStq.ctx.pipe.held = [] ∧ sStq.ctx.q.lq = [] :=
  ⟨⟨3, 0, 0, 0, .store (2 ^ 56 - 2) [1, 2] none, false⟩, 0xFFFFFE, 0xFF0197, by unfold Maps Reaches; decide +kernel⟩

/-- Context 3 of a core that no context issues on is bound to a segment of one ADD, whose fault horizon is past. -/
def sSw : State := { (sRun id).modCtxAt ⟨0, 0, 19⟩ 3 fun c => { c with bind := some bd, half := some { slotSeg 0 with code := [0x80105187] } } with focus := ⟨0, 0, 19⟩, sub := 3 }
theorem witness_ContextSwitch : (∀ c < 4, (sSw.core.ctx c).latch = []) ∧ sSw.core.switch = 0 ∧ sSw.core.cur = none ∧ sSw.core.cur ≠ some sSw.sub ∧ sSw.seemsReady = true := by decide +kernel
/-- A segment that context 0 has asked for, on demand or ahead. -/
def sFet (pre : Bool) : State := { sRun (fun c => { c with fetch := some (0x10000, pre) }) with focus := ⟨0, 0, 19⟩ }
theorem witness_SegmentFetch : ∀ pre : Bool, ∃ u g, (sFet pre).ctx.fetch = some (0x10000, pre) ∧ (sFet pre).fetchSeg (sFet pre).focus (sFet pre).sub (sFet pre).root 0x10000 = (u, .got g) ∧
    u.focus = (sFet pre).focus ∧ u.sub = (sFet pre).sub := by
  intro pre
  obtain ⟨g, h⟩ := got_of (r := (sFet pre).fetchSeg (sFet pre).focus (sFet pre).sub (sFet pre).root 0x10000) (by cases pre <;> decide +kernel)
  exact ⟨_, g, by cases pre <;> decide +kernel, h, by cases pre <;> decide +kernel, by cases pre <;> decide +kernel⟩
/-- A modulo loop of two rows, II 2, one stage, three iterations, before kernel cycle `k`. -/
def sKern (k : Nat) (begun : Bool) : State := State.reset.modCtx fun c => { c with
  half := some { slotSeg 0 with code := [0x80105187, 0x81F01FFF] }
  ctl := { c.ctl with depth := 1, inside := [0], kern := some k, begun := begun }
  regs := { c.regs with lvl := [(0, { Level.reset with trip := 3, bend := 1, modulo := true, ii := 2 })] } }
theorem witness_KernelCycle : ∀ k ∈ [0, 1, 5], ∀ b : Bool, (sKern k b).ctx.ctl.kern = some k ∧ (sKern k b).ctx.latch = [] ∧
    (sKern k b).ctx.half = some { slotSeg 0 with code := [0x80105187, 0x81F01FFF] } ∧ (sKern k b).ctx.sys.watch = [] ∧
    kernelSlots { slotSeg 0 with code := [0x80105187, 0x81F01FFF] } ((sKern k b).lvl 0) k ≠ [] ∧ ((sKern k b).lvl 0).strides = [] ∧ (sKern k b).ctx.pipe.undo.length < 256 := by decide +kernel
/-- The base turns in a kernel cycle that is a multiple of II, and once. -/
theorem test_rotation : ∀ x ∈ [(0, false, 991), (0, true, 0), (1, false, 0), (2, false, 991)], (match exec .moduloKernelCycle (sKern x.1 x.2.1) with
    | .next t => t.ctx.regs.base == x.2.2 && t.ctx.latch.length == 1 | _ => false) = true := by decide +kernel

/-! ### The array -/

/-- The feeder queue holds one item, eligible in cycle 8, which has come; cell 31 of every row holds its number. -/
def sArr (k : ItemKind) : State := ((State.reset.modCore fun x => { x with cycle := 8 }).modArr fun r => { r with
  owner := some 0, items := [⟨1, 0, 8, 0, k⟩], grid := { Grid.reset with acc := (List.range 32).map fun i => (32 * i + 31, BitVec.ofNat 32 (i + 1)) } })
theorem witness_ArrayItemEntry : ∀ k ∈ [ItemKind.clear, .cell 5, .cfg 3, .drain 8191, .shift 8191 0, .snap], (sArr k).core.arr.items = [⟨1, 0, 8, 0, k⟩] ∧
    (sArr k).core.arr.mayEnter (sArr k).cyc = true ∧ (sArr k).core.arr.rest = none := by decide +kernel
/-- The drained column is the cells' east column; the row of accumulator memory shifted in is zeros. -/
theorem test_drain : (match exec .arrayItemEntry (sArr (.drain 8191)) with
    | .next t => t.core.arr.exits.map (fun e => (e.due, e.row, e.data % 2 ^ 64)) == [(13, some 8191, 0x200000001)] | _ => false) = true := by decide +kernel
/-- A beat that entered 63 cycles ago, with overflow raised. -/
def sCross : State := (State.reset.modCore fun x => { x with cycle := 63 }).modArr fun r => { r with cross := [⟨0, 3, 1, fOF, Grid.reset⟩] }
theorem witness_BeatSettle : sCross.core.arr.cross = [⟨0, 3, 1, fOF, Grid.reset⟩] ∧ (⟨0, 3, 1, fOF, Grid.reset⟩ : Crossing).entry + 63 ≤ sCross.cyc ∧ sCross.core.arr.rest = none := by decide +kernel
/-- A drained column and an edge row due in this cycle, for the last row of accumulator memory. -/
def sExit (edge : Bool) : State := (State.reset.modCore fun x => { x with cycle := 5 }).modArr fun r => { r with exits := [⟨5, 0, 0, some 8191, 2 ^ 1023 + 1, edge⟩] }
theorem witness_RowLanding : ∀ b : Bool, (sExit b).core.arr.exits = [⟨5, 0, 0, some 8191, 2 ^ 1023 + 1, b⟩] ∧ 5 ≤ (sExit b).cyc ∧ (sExit b).core.copying none = [] := by decide +kernel
theorem witness_RowLanding_wf : ∀ b : Bool, (sExit b).memoriesWf := by unfold State.memoriesWf; decide +kernel
theorem test_drain_lands : (match exec .drainLanding (sExit false) with | .next t => t.core.accm == [(0xFFF80, 1), (0xFFFFF, 0x80)] | _ => false) = true := by decide +kernel
theorem witness_OwnershipEnd : (State.reset.modArr fun r => { r with owner := some 2, releasing := true }).core.arr.ownershipEnds = true := by decide +kernel

/-! ### Copies -/

/-- Bytes at the ends of the scratchpad and of accumulator memory; handle 15 has one slot of one line, empty, at the end of the scratchpad. -/
def sCpy (k : Cmd) : State := ((State.reset.modCore fun x => { x with spad := [(0x3FFF00, 9)], accm := [(0xFFE00, 9)] }).modRegs fun r => { r with
  cb := [(15, { CBuf.reset with base := 0x3FFE00, ssize := 1, nslot := 1, pendSet := 1 })] }).modQ fun q => { q with cmds := [k], tlOut := [(0, k.num)] }
/-- What a command has read of its line before and after the read. -/
def read7 (io : Nat) : List Byte := List.replicate (64 * io) 7
/-- CPY of the last 256 bytes of the scratchpad to accumulator memory, to start; at its first line and at its last, read or not; failed, and ended. -/
def kCpy (stage off io : Nat) : Cmd := { Cmd.reset with num := 7, ser := 1, rel := 2, ops := [0, 0x3FFF00, 0x600000100], stage := stage, off := off, io := io, buf := read7 io }
def kBad : Cmd := { kCpy 3 128 0 with err := 0x0301, faddr := 5 }
/-- CPYC of the last 512 bytes of accumulator memory, started; at its first line and at its last. CBSET of handle 15, to start. -/
def kCpyc (off io : Nat) : Cmd := { Cmd.reset with
  num := 7, ser := 1, rel := 2, kind := 3, ops := [0xFFE00, 512, 512, 0x900000001], cb := 15, stage := 2, off := off, io := io, buf := read7 io }
def kSet : Cmd := { Cmd.reset with num := 7, ser := 1, rel := 2, kind := 4, ops := [0x3FFC00, 1, 2], cb := 15, stage := 1 }
theorem witness_CopyStarts : ∀ k ∈ [kCpy 1 0 0, { kCpyc 0 0 with stage := 1 }, kSet], (sCpy k).ctx.copyNext = some k ∧ (k.kind = 3 → cpycOk k ((sCpy k).cb k.cb) = true) ∧
    (k.kind = 4 ∨ k.finished ((sCpy k).cb k.cb) = false) := by decide +kernel
theorem witness_CopyLines : ctlSsp (kCpy 2 0 0).ctl = 1 ∧ ctlDsp (kCpy 2 0 0).ctl = 2 ∧
    ∀ off ∈ [0, 128], ∀ io ∈ [0, 2], let k := kCpy 2 off io
      Moving (sCpy k) k ∧ k.job ((sCpy k).cb k.cb) = [(0x3FFF00 + off, off, 128)] ∧ (sCpy k).bankIdle (0x3FFF00 + off) = true ∧ (sCpy k).preloading (0x3FFF00 + off) = false ∧
        (sCpy k).rowIdle off = true ∧ (sCpy k).core.errs = [] ∧ (io = 0 → k.buf = []) ∧ (io = 2 → Whole (sCpy k) k 128) ∧
        ((k.advance ((sCpy k).cb k.cb)).finished ((sCpy k).cb k.cb) = true ↔ off = 128) := by unfold Moving Whole; decide +kernel
theorem witness_CopyEnds : ∀ k ∈ [kBad, kCpy 3 128 0], ((sCpy k).ctx.q.cmds.find? fun k => k.num == 7) = some k ∧ k.stage = 3 := by decide +kernel
/-- The slot is free; the same with the slot full. -/
theorem witness_CpycSlotFill : (∀ off ∈ [0, 384], ∀ io ∈ [0, 2], let k := kCpyc off io
      Filling (sCpy k) k ∧ k.job ((sCpy k).cb k.cb) = [(0xFFE00 + off, 0x3FFE00 + off, 128)] ∧ ctlSsp k.ctl = 2 ∧ 0 < ((sCpy k).cb k.cb).free ∧ (sCpy k).bankIdle (0x3FFE00 + off) = true ∧
        (sCpy k).rowIdle (0xFFE00 + off) = true ∧ (sCpy k).core.arr.rowPending ((0xFFE00 + off) / 128) = false ∧ (sCpy k).core.errs = [] ∧ (io = 0 → k.buf = []) ∧
        (io = 2 → Whole (sCpy k) k 128) ∧ ((sCpy k).cb k.cb).prog = false ∧ ((k.advance ((sCpy k).cb k.cb)).finished ((sCpy k).cb k.cb) = true ↔ off = 384)) ∧
    let s := (sCpy (kCpyc 0 0)).modRegs fun r => { r with cb := [(15, { CBuf.reset with base := 0x3FFE00, ssize := 1, nslot := 1, wp := 1 })] }
    Filling s (kCpyc 0 0) ∧ (s.cb 15).free ≤ 0 := by unfold Filling Whole; decide +kernel
theorem witness_Cbset : ((sCpy kSet).ctx.q.cmds.find? fun k => k.num == 7) = some kSet ∧ (sCpy kSet).ctx.cbsetReady kSet = true := by decide +kernel
theorem witness_CopyEvents_wf : ∀ k ∈ [kCpy 2 0 2, kCpyc 384 2], (sCpy k).memoriesWf := by unfold State.memoriesWf; decide +kernel
/-- The first line is written from byte 0 of accumulator memory on; the last of the slot ends the scratchpad, and WP is 1. -/
theorem test_copies : (match exec .copyCommandStart (sCpy (kCpy 2 0 2)) with | .next t => t.core.accm.head? == some (0, 7) && t.core.accm.length == 129 | _ => false) = true ∧
    (match exec (.cpycSlotFill 7) (sCpy (kCpyc 384 2)) with | .next t => t.core.spad.getLast? == some (0x3FFFFF, 7) && (t.cb 15).wp == 1 | _ => false) = true := by decide +kernel

/-! ### Flags and collectives -/

/-- A FLAGW released, whose flag lies at the end of a page of die 0 that may be written; it covers tlc operation 7. -/
def fw : FlagW := ⟨3, 0, 0, 0x5FFF8, 9, [(0, 7)], 4, true, false⟩
def sFlg (d : List Deferred) : State := (State.reset.modCore fun k => { k with tlb := [⟨0, 5, 16, 0x70187, none⟩] }).modQ fun q => { q with
  tl := [(0, 7)], flagws := [fw], deferred := d, failed := d }
theorem witness_FlagwFlagWrite : (∀ l ∈ [[], [⟨1, 0, 7, 0x0301, 5⟩]], (sFlg l).ctx.q.flagws.find? (sFlg l).ctx.flagwReady = some fw) ∧
    (sFlg [⟨1, 0, 7, 0x0301, 5⟩]).ctx.q.coveredFailure fw = some ⟨1, 0, 7, 0x0301, 5⟩ ∧
    ((sFlg []).ctx.q.coveredFailure fw = none ∧ Maps (sFlg []) (sFlg []).root fw.va 1 0x7FFF8 0x70187 ∧ Reaches (sFlg []) (sFlg []).focus.core 0x7FFF8) := by
  unfold Maps Reaches; decide +kernel
/-- A WAITF of that flag, 256 cycles after its last load; its deadline is that cycle. -/
def wf : WaitF := ⟨4, 0x5FFF8, 9, 256, 0, false, false, none, 0⟩
def sWf : State := ((sFlg []).modCore fun k => { k with cycle := 256 }).modPipe fun p => { p with waitf := some wf }
theorem witness_WaitfEvents : sWf.ctx.pipe.waitf = some wf ∧ sWf.ctx.loadHeld = false ∧ Maps sWf sWf.root wf.va 0 0x7FFF8 0x70187 ∧ Reaches sWf sWf.focus.core 0x7FFF8 ∧
    wf.reloadDue sWf.cyc = true ∧ wf.deadlineDue sWf.cyc = true := by unfold Maps Reaches; decide +kernel
/-- A collective of 33 elements of FP32 in a group at 0x51000, this member 1 of two: released; with its first packet read; with its last bytes read. -/
def kCol (started : Bool) (buf : Nat) : CollOp := { CollOp.reset with
  num := 3, ser := 1, rel := 2, va := 0x50000, released := true, started := started, off := buf, buf := List.replicate (if buf = 128 then 128 else buf % 128) 7, first := buf / 128 * 32 % 64
  blk := [0x51000, 0x52000, 0x53000, 0, 0, 33, 2, 1, 0, 0, 0] }
def sCol (k : CollOp) : State := (State.reset.modCore fun k => { k with tlb := [⟨0, 5, 16, 0x70187, none⟩] }).modQ fun q => { q with colls := [k] }
theorem witness_CollEngineStart : (let k := kCol false 0
      (sCol k).ctx.q.colls = [k] ∧ k.err = 0 ∧ k.io = false ∧ k.started = false ∧ (sCol k).ctx.collReady k = true ∧ Maps (sCol k) k.root k.va 0 0x70000 0x70187 ∧ Reaches (sCol k) 40 0x70000) ∧
    ∀ n ∈ [128, 132], let k := kCol true n
      (sCol k).ctx.q.colls = [k] ∧ k.err = 0 ∧ k.io = false ∧ k.started = true ∧ (128 ≤ k.buf.length ∨ k.off = blkBytes k.blk ∧ k.buf ≠ []) ∧
        Maps (sCol k) k.root (blkGroup k.blk) 1 0x71000 0x70187 ∧ Reaches (sCol k) 40 0x71000 := by unfold Maps Reaches; decide +kernel

/-! ### The invariant -/

theorem witness_MemoriesStayCanonical : State.reset.memoriesWf ∧ ∃ t, step State.reset = .next t := ⟨by unfold State.memoriesWf; decide +kernel, _, rfl⟩

end Sys2Proof.Tests
end

section
/-! PROOFS. The values of the integer, predicate and immediate slots (R229 to R233, R246), and what such a slot sends. -/

open Sys2Proof.Claims

namespace Sys2Proof.Machine

/-! ### A word as a number modulo 2^64 -/

/-- The unsigned value of a word is its signed value reduced modulo 2^64. -/
theorem word_toNat_eq_toInt_emod (a : Word) : a.toNat = (a.toInt % (2 ^ 64 : Nat)).toNat := by
  rw [← BitVec.toNat_ofInt, BitVec.ofInt_toInt]

theorem word_toNat_eq_zero_iff {a : Word} : a.toNat = 0 ↔ a = 0 := BitVec.toNat_inj (y := 0)

theorem word_toInt_eq_zero_iff {a : Word} : a.toInt = 0 ↔ a = 0 := BitVec.toInt_inj (y := 0)

/-- A sum of a word and a signed 12-bit immediate (R233). -/
theorem word_add_signExtend_toNat (a : Word) (n : BitVec 12) :
    (a + n.signExtend 64).toNat = ((a.toInt + n.toInt) % (2 ^ 64 : Nat)).toNat := by
  rw [← BitVec.toNat_ofInt, BitVec.ofInt_add, BitVec.ofInt_toInt]; rfl

/-! ### Arithmetic (R229, R99) -/

theorem word_sub_toNat (a b : Word) : (a - b).toNat = (a.toNat + (2 ^ 64 - b.toNat)) % 2 ^ 64 := by
  rw [BitVec.toNat_sub, Nat.add_comm]

theorem word_mulHigh_toNat (a b : Word) : (BitVec.ofNat 64 (a.toNat * b.toNat / 2 ^ 64)).toNat = a.toNat * b.toNat / 2 ^ 64 := by
  have hlt : a.toNat * b.toNat < 2 ^ 64 * 2 ^ 64 := Nat.mul_lt_mul'' a.isLt b.isLt
  rw [BitVec.toNat_ofNat, Nat.mod_eq_of_lt (Nat.div_lt_of_lt_mul hlt)]

theorem divS_toNat (a b : Word) : (divS a b).toNat =
    if b.toInt = 0 then 2 ^ 64 - 1 else if a.toInt = -2 ^ 63 ∧ b.toInt = -1 then 2 ^ 63
    else (a.toInt.tdiv b.toInt % (2 ^ 64 : Nat)).toNat := by
  simp only [divS, word_toInt_eq_zero_iff]
  split
  · rfl
  · rw [BitVec.toNat_ofInt]
    split
    · next h => rw [h.1, h.2]; decide
    · rfl

theorem divU_toNat (a b : Word) : (divU a b).toNat = if b.toNat = 0 then 2 ^ 64 - 1 else a.toNat / b.toNat := by
  simp only [divU, word_toNat_eq_zero_iff]
  split
  · rfl
  · rw [BitVec.toNat_ofNat, Nat.mod_eq_of_lt (Nat.lt_of_le_of_lt (Nat.div_le_self ..) a.isLt)]

theorem remS_toNat (a b : Word) : (remS a b).toNat =
    if b.toInt = 0 then a.toNat else ((a.toInt - b.toInt * a.toInt.tdiv b.toInt) % (2 ^ 64 : Nat)).toNat := by
  simp only [remS, word_toInt_eq_zero_iff]
  split
  · rfl
  · rw [BitVec.toNat_ofInt, Int.tmod_def]

theorem remU_toNat (a b : Word) : (remU a b).toNat = if b.toNat = 0 then a.toNat else a.toNat % b.toNat := by
  simp only [remU, word_toNat_eq_zero_iff]
  split
  · rfl
  · rw [BitVec.toNat_ofNat, Nat.mod_eq_of_lt (Nat.lt_of_le_of_lt (Nat.mod_le ..) a.isLt)]

/-! ### Logic and shifts (R229, R233) -/

theorem word_andNot_toNat (a b : Word) : (a &&& ~~~b).toNat = a.toNat &&& (2 ^ 64 - 1 - b.toNat) := by
  rw [BitVec.toNat_and, BitVec.toNat_not]

theorem word_shiftLeft_toNat (a : Word) (n : Nat) : (a <<< n).toNat = a.toNat * 2 ^ n % 2 ^ 64 := by
  rw [BitVec.toNat_shiftLeft, Nat.shiftLeft_eq]

theorem word_shiftRight_toNat (a : Word) (n : Nat) : (a >>> n).toNat = a.toNat / 2 ^ n := by
  rw [BitVec.toNat_ushiftRight, Nat.shiftRight_eq_div_pow]

theorem word_sshiftRight_toNat (a : Word) (n : Nat) : (a.sshiftRight n).toNat = (a.toInt / 2 ^ n % (2 ^ 64 : Nat)).toNat := by
  rw [BitVec.sshiftRight, BitVec.toNat_ofInt, Int.shiftRight_eq_div_pow, Nat.cast_pow, Nat.cast_ofNat]

/-- A rotation by 0 is left as it is; any other puts the high bits below. -/
theorem word_rotateLeft_toNat (a : Word) (n : Nat) : (a.rotateLeft (n % 64)).toNat =
    if n % 64 = 0 then a.toNat else a.toNat * 2 ^ (n % 64) % 2 ^ 64 ||| a.toNat / 2 ^ (64 - n % 64) := by
  rw [BitVec.toNat_rotateLeft, Nat.mod_mod, Nat.shiftLeft_eq, Nat.shiftRight_eq_div_pow]
  split
  · next h => rw [h, Nat.pow_zero, Nat.mul_one, Nat.mod_eq_of_lt a.isLt, Nat.div_eq_of_lt a.isLt, Nat.or_zero]
  · rfl

/-- The immediate of LIH fills the twelve bits that the shift has emptied. -/
theorem word_shiftIn12_toNat (a : Word) (n : BitVec 12) : (a <<< 12 ||| n.setWidth 64).toNat = (a.toNat * 4096 + n.toNat) % 2 ^ 64 := by
  have hn : n.toNat < 2 ^ 12 := n.isLt
  rw [BitVec.toNat_or, word_shiftLeft_toNat, BitVec.toNat_setWidth, Nat.mod_eq_of_lt (a := n.toNat) (by omega),
    show a.toNat * 2 ^ 12 % 2 ^ 64 = 2 ^ 12 * (a.toNat % 2 ^ 52) by omega, ← Nat.two_pow_add_eq_or_of_lt hn]
  omega

/-! ### Minimum and maximum (R229) -/

theorem word_min_toNat (a b : Word) : (if a.toInt ≤ b.toInt then a else b).toNat = (min a.toInt b.toInt % (2 ^ 64 : Nat)).toNat := by
  rw [Int.min_def]
  split <;> exact word_toNat_eq_toInt_emod _

theorem word_max_toNat (a b : Word) : (if a.toInt ≤ b.toInt then b else a).toNat = (max a.toInt b.toInt % (2 ^ 64 : Nat)).toNat := by
  rw [Int.max_def]
  split <;> exact word_toNat_eq_toInt_emod _

theorem word_minU_toNat (a b : Word) : (if a.toNat ≤ b.toNat then a else b).toNat = min a.toNat b.toNat := by
  rw [Nat.min_def, apply_ite BitVec.toNat]

theorem word_maxU_toNat (a b : Word) : (if a.toNat ≤ b.toNat then b else a).toNat = max a.toNat b.toNat := by
  rw [Nat.max_def, apply_ite BitVec.toNat]

/-! ### Bit counts and fields (R230) -/

theorem clz64_toNat (a : Word) : (BitVec.ofNat 64 (clz64 a)).toNat = if a.toNat = 0 then 64 else 63 - a.toNat.log2 := by
  simp only [clz64, word_toNat_eq_zero_iff]
  rw [BitVec.toNat_ofNat, Nat.mod_eq_of_lt]
  split <;> omega

/-- Counting the one bits from the lowest up is counting the bit positions that hold one. -/
theorem popcount_eq_length_filter (x n : Nat) : popcount x n = ((List.range n).filter fun k => x.testBit k).length := by
  induction n generalizing x with
  | zero => rfl
  | succ n ih =>
    have htail : (fun k => x.testBit k) ∘ Nat.succ = fun k => (x / 2).testBit k := funext (Nat.testBit_succ x)
    rw [popcount, ih, List.range_succ_eq_map, List.filter_cons, List.filter_map, htail, Nat.testBit_zero]
    rcases Nat.mod_two_eq_zero_or_one x with h | h <;> simp [h, Nat.add_comm]

theorem popcount_le (x n : Nat) : popcount x n ≤ n := by
  rw [popcount_eq_length_filter]
  exact (List.length_filter_le ..).trans_eq List.length_range

theorem popcount64_toNat (x : Nat) : (BitVec.ofNat 64 (popcount x 64)).toNat = ((List.range 64).filter fun k => x.testBit k).length := by
  have hle := popcount_le x 64
  rw [BitVec.toNat_ofNat, Nat.mod_eq_of_lt (by omega), popcount_eq_length_filter]

/-- A field of `n + 1` bits is at most a word. -/
theorem pow_field_le (n : BitVec 6) : 2 ^ (n.toNat + 1) ≤ 2 ^ 64 := Nat.pow_le_pow_right (by decide) n.isLt

/-- A negative field has ones above it, any other zeros. -/
theorem sextField_toNat (x : Nat) (n : BitVec 6) : (BitVec.ofInt 64 (sextN x (n.toNat + 1))).toNat =
    if x.testBit n.toNat then x % 2 ^ (n.toNat + 1) + (2 ^ 64 - 2 ^ (n.toNat + 1)) else x % 2 ^ (n.toNat + 1) := by
  have hle := pow_field_le n
  have hlt : x % 2 ^ (n.toNat + 1) < 2 ^ (n.toNat + 1) := Nat.mod_lt _ (by positivity)
  rw [BitVec.toNat_ofInt, sextN, Nat.add_sub_cancel]
  norm_cast
  generalize 2 ^ (n.toNat + 1) = m at *
  split
  · rw [Int.subNatNat_eq_coe]; omega
  · omega

theorem zextField_toNat (x : Nat) (n : BitVec 6) : (BitVec.ofNat 64 (x % 2 ^ (n.toNat + 1))).toNat = x % 2 ^ (n.toNat + 1) := by
  rw [BitVec.toNat_ofNat, Nat.mod_eq_of_lt ((Nat.mod_lt _ (by positivity)).trans_le (pow_field_le n))]

/-! ### Predicates (R232) -/

/-- CMP's row compares signed values where the model compares words for equality. -/
theorem integerRow_cmp (h : Hd) (g : BitVec 2) (k c : BitVec 3) (a b : BitVec 6) (s : State) :
    integerRow (.cmp h g k c a b) s = some ⟨g, 1, .p k.toNat, (cmpCond c (s.rs a.toNat) (s.rs b.toNat)).toNat, 0⟩ := by
  have heq : decide (s.rs a.toNat = s.rs b.toNat) = decide ((s.rs a.toNat).toInt = (s.rs b.toNat).toInt) :=
    decide_eq_decide.mpr BitVec.toInt_inj.symm
  have hne : decide (s.rs a.toNat ≠ s.rs b.toNat) = decide ((s.rs a.toNat).toInt ≠ (s.rs b.toNat).toInt) :=
    decide_eq_decide.mpr BitVec.toInt_inj.not.symm
  rw [cmpCond, heq, hne]
  rfl

theorem integerRow_plog (h : Hd) (g : BitVec 2) (k o x y : BitVec 3) (s : State) :
    integerRow (.plog h g k o x y) s = some ⟨g, 1, .p k.toNat, (logic1 o (s.rp x.toNat) (s.rp y.toNat)).toNat, 0⟩ := rfl

/-! ### What a slot of the tables sends -/

/-- A C slot that sends the result of a row of the tables under its qualifier and guard. -/
def sendRow (h : Hd) (r : Scalar) (s : State) : Out :=
  guarded h r.guard s fun s => s.result r.lat r.reg (.bits r.val) 0 r.flags

/-- Only what a slot does at the state in which it issues counts. -/
theorem guarded_congr {h : Hd} {g : BitVec 2} {s : State} {f f' : State → State} (he : f s = f' s) : guarded h g s f = guarded h g s f' := by
  simp only [guarded, slot, he]

theorem scalarOp_eq_sendRow {h : Hd} {g : BitVec 2} {d : BitVec 6} {lat n : Nat} {fl : Flags} {s : State} {v : State → Word × Flags}
    (hv : (v s).1.toNat = n) (hf : (v s).2 = fl) : scalarOp h g d lat s v = sendRow h ⟨g, lat, .s d.toNat, n, fl⟩ s :=
  guarded_congr (by subst hv hf; rfl)

theorem intOp_eq_sendRow {h : Hd} {g : BitVec 2} {d a b : BitVec 6} {lat n : Nat} {s : State} {op : Word → Word → Word}
    (hv : (op (s.rs a.toNat) (s.rs b.toNat)).toNat = n) : intOp h g d a b lat s op = sendRow h ⟨g, lat, .s d.toNat, n, 0⟩ s :=
  scalarOp_eq_sendRow hv rfl

theorem divOp_eq_sendRow {h : Hd} {g : BitVec 2} {d a b : BitVec 6} {n : Nat} {s : State} {op : Word → Word → Word}
    (hv : (op (s.rs a.toNat) (s.rs b.toNat)).toNat = n) :
    divOp h g d a b s op = sendRow h ⟨g, 12, .s d.toNat, n, if (s.rs b.toNat).toNat = 0 then fDZ else 0⟩ s :=
  scalarOp_eq_sendRow hv (by simp only [word_toNat_eq_zero_iff])

/-- The integer, predicate and immediate slots do what the tables of R229 to R233 and R246 say, whatever their qualifier and guard. -/
theorem exec_of_integerRow {i : Instr} {s : State} {r : Scalar} (hr : integerRow i s = some r) : exec i s = sendRow i.hd r s := by
  cases i
  case add h g d a b =>
    cases hr; change execAdd h g d a b s = _
    exact intOp_eq_sendRow (BitVec.toNat_add ..)
  case sub h g d a b =>
    cases hr; change execSub h g d a b s = _
    exact intOp_eq_sendRow (word_sub_toNat ..)
  case mul h g d a b =>
    cases hr; change execMul h g d a b s = _
    exact intOp_eq_sendRow (BitVec.toNat_ofInt _)
  case mulh h g d a b =>
    cases hr; change execMulh h g d a b s = _
    exact intOp_eq_sendRow (BitVec.toNat_ofInt _)
  case mulhu h g d a b =>
    cases hr; change execMulhu h g d a b s = _
    exact intOp_eq_sendRow (word_mulHigh_toNat ..)
  case divs h g d a b =>
    cases hr; change execDivs h g d a b s = _
    exact divOp_eq_sendRow (divS_toNat ..)
  case divu h g d a b =>
    cases hr; change execDivu h g d a b s = _
    exact divOp_eq_sendRow (divU_toNat ..)
  case rems h g d a b =>
    cases hr; change execRems h g d a b s = _
    exact divOp_eq_sendRow (remS_toNat ..)
  case remu h g d a b =>
    cases hr; change execRemu h g d a b s = _
    exact divOp_eq_sendRow (remU_toNat ..)
  case and h g d a b =>
    cases hr; change execAnd h g d a b s = _
    exact intOp_eq_sendRow (BitVec.toNat_and ..)
  case or h g d a b =>
    cases hr; change execOr h g d a b s = _
    exact intOp_eq_sendRow (BitVec.toNat_or ..)
  case xor h g d a b =>
    cases hr; change execXor h g d a b s = _
    exact intOp_eq_sendRow (BitVec.toNat_xor ..)
  case andn h g d a b =>
    cases hr; change execAndn h g d a b s = _
    exact intOp_eq_sendRow (word_andNot_toNat ..)
  case shl h g d a b =>
    cases hr; change execShl h g d a b s = _
    exact intOp_eq_sendRow (word_shiftLeft_toNat ..)
  case shr h g d a b =>
    cases hr; change execShr h g d a b s = _
    exact intOp_eq_sendRow (word_shiftRight_toNat ..)
  case sar h g d a b =>
    cases hr; change execSar h g d a b s = _
    exact intOp_eq_sendRow (word_sshiftRight_toNat ..)
  case rot h g d a b =>
    cases hr; change execRot h g d a b s = _
    exact intOp_eq_sendRow (word_rotateLeft_toNat ..)
  case min h g d a b =>
    cases hr; change execMin h g d a b s = _
    exact intOp_eq_sendRow (word_min_toNat ..)
  case max h g d a b =>
    cases hr; change execMax h g d a b s = _
    exact intOp_eq_sendRow (word_max_toNat ..)
  case minu h g d a b =>
    cases hr; change execMinu h g d a b s = _
    exact intOp_eq_sendRow (word_minU_toNat ..)
  case maxu h g d a b =>
    cases hr; change execMaxu h g d a b s = _
    exact intOp_eq_sendRow (word_maxU_toNat ..)
  case clz h g d a =>
    cases hr; change execClz h g d a s = _
    exact scalarOp_eq_sendRow (clz64_toNat _) rfl
  case popc h g d a =>
    cases hr; change execPopc h g d a s = _
    exact scalarOp_eq_sendRow (popcount64_toNat _) rfl
  case sext h g d a n =>
    cases hr; change execSext h g d a n s = _
    exact scalarOp_eq_sendRow (sextField_toNat ..) rfl
  case zext h g d a n =>
    cases hr; change execZext h g d a n s = _
    exact scalarOp_eq_sendRow (zextField_toNat ..) rfl
  case cmp h g k c a b =>
    rw [integerRow_cmp] at hr; cases hr
    change execCmp h g k c a b s = _
    exact guarded_congr rfl
  case plog h g k o x y =>
    rw [integerRow_plog] at hr; cases hr
    change execPlog h g k o x y s = _
    exact guarded_congr rfl
  case addi h g d n =>
    cases hr; change execAddi h g d n s = _
    exact scalarOp_eq_sendRow (word_add_signExtend_toNat ..) rfl
  case li h g d n =>
    cases hr; change execLi h g d n s = _
    exact scalarOp_eq_sendRow (BitVec.toNat_ofInt _) rfl
  case lih h g d n =>
    cases hr; change execLih h g d n s = _
    exact scalarOp_eq_sendRow (word_shiftIn12_toNat ..) rfl
  case lpidx h g d l =>
    cases hr
    exact scalarOp_eq_sendRow (v := fun s => (BitVec.ofNat 64 (s.ridx l.toNat), 0)) (BitVec.toNat_ofNat ..) rfl
  -- no other instruction has a row
  all_goals cases hr

/-- Settles O7: the slot does what its row of the tables says, and with its guard 1 and room in the undo log that is to send. -/
theorem integerResults : Obligations.IntegerResults := by
  intro i s r hr hruns hguard hroom
  obtain ⟨hissues, -⟩ := hruns
  exact ⟨_, (exec_of_integerRow hr).trans (guarded_true _ hissues hguard), State.result_sends _ _ _ _ hroom⟩

/-- Settles O8: SEL has no guard, and p0 reads 1. -/
theorem selResult : Obligations.SelResult := by
  intro h p d a b s hruns hroom
  obtain ⟨hissues, -⟩ := hruns
  have hsel : ∃ t, exec (.sel h p d a b) s = .next t ∧
      Sends s t 1 (.s d.toNat) (.bits (if s.rp p.toNat then s.rs a.toNat else s.rs b.toNat).toNat) 0 0 :=
    ⟨_, (rfl : _ = execSel h p d a b s).trans (slot_issued _ hissues), State.result_sends _ _ _ _ hroom⟩
  refine ⟨hsel, ?_⟩
  rintro rfl
  have hp0 : s.rp (0 : BitVec 2).toNat = true := rfl
  simpa only [hp0, if_true] using hsel

end Sys2Proof.Machine
end
